-- ==== Sys2Proof/Word.lean ====
section
/-! DEFINITION. The word types: a byte is 8 bits, a field or register value 16 bits, all unsigned (R11). -/

namespace Sys2Proof

/-- A byte; bit 7 is its most significant bit (R12). -/
abbrev Byte := BitVec 8

/-- A 16-bit field or register value; bit 15 is its most significant bit (R12). -/
abbrev Word := BitVec 16

end Sys2Proof
end

