-- ==== Sys2Proof/Syntax.lean ====
section
/-! DEFINITION. The request frames as syntax: the seven fields of format REQ12 (R90), and one constructor of `Instr` for
each row of the function-code map (R101, spec/opcode_table.json). -/

namespace Sys2Proof

/-- What the seven field registers hold (R20), in wire order (R90). -/
structure Fields where
  tid  : Word
  pid  : Word
  len  : Word
  uid  : Byte
  fc   : Byte
  addr : Word
  qty  : Word
  deriving DecidableEq, Repr

/-- The operands of a request in the mnemonic form of R114, with that rule's defaults for omitted operands. The function
code is the mnemonic's. -/
structure Request where
  tid  : Word := 1
  pid  : Word := 0
  len  : Word := 6
  uid  : Byte := 1
  addr : Word := 0
  qty  : Word := 0
  deriving DecidableEq, Repr

/-- A request, one constructor for each mnemonic of R101 in that table's order. -/
inductive Instr where
  /-- Read Coils, 0x01 (R191). -/
  | rc (r : Request)
  /-- Read Discrete Inputs, 0x02 (R192). -/
  | rdi (r : Request)
  /-- Read Holding Registers, 0x03 (R170, R171). -/
  | rhr (r : Request)
  /-- Read Input Registers, 0x04 (R193). -/
  | rir (r : Request)
  /-- Write Single Coil, 0x05 (R194). -/
  | wsc (r : Request)
  /-- Write Single Register, 0x06 (R195). -/
  | wsr (r : Request)
  /-- Read Exception Status, 0x07 (R196). -/
  | res (r : Request)
  /-- Diagnostics, 0x08 (R197). -/
  | diag (r : Request)
  /-- Get Comm Event Counter, 0x0B (R198). -/
  | gcec (r : Request)
  /-- Get Comm Event Log, 0x0C (R199). -/
  | gcel (r : Request)
  /-- Write Multiple Coils, 0x0F (R200). -/
  | wmc (r : Request)
  /-- Write Multiple Registers, 0x10 (R201). -/
  | wmr (r : Request)
  /-- Report Server ID, 0x11 (R202). -/
  | rsid (r : Request)
  /-- Read File Record, 0x14 (R203). -/
  | rfr (r : Request)
  /-- Write File Record, 0x15 (R204). -/
  | wfr (r : Request)
  /-- Mask Write Register, 0x16 (R205). -/
  | mwr (r : Request)
  /-- Read/Write Multiple Registers, 0x17 (R206). -/
  | rwmr (r : Request)
  /-- Read FIFO Queue, 0x18 (R207). -/
  | rfq (r : Request)
  /-- Any other function code, carried as an operand (R208, R114). -/
  | unk (fc : Byte) (r : Request)
  deriving DecidableEq, Repr

end Sys2Proof
end

