-- ==== Sys2Proof/WellFormed.lean ====
section
/-! DEFINITION. Which terms of `Instr` are requests of the function-code map: the operand of `UNK` is a code the map does
not name (R101, R208). Every other operand is of its field's width by its type. -/

namespace Sys2Proof

/-- The 18 function codes R101 names, the recognised 0x03 among them. -/
def namedCodes : List Byte :=
  [0x01, 0x02, 0x03, 0x04, 0x05, 0x06, 0x07, 0x08, 0x0B, 0x0C, 0x0F, 0x10, 0x11, 0x14, 0x15, 0x16, 0x17, 0x18]

/-- An `UNK` request carries none of the named codes (R208); the other forms have no condition. -/
abbrev Instr.WellFormed (i : Instr) : Prop :=
  match i with
  | .rc _ | .rdi _ | .rhr _ | .rir _ | .wsc _ | .wsr _ | .res _ | .diag _ | .gcec _ | .gcel _ | .wmc _ | .wmr _
  | .rsid _ | .rfr _ | .wfr _ | .mwr _ | .rwmr _ | .rfq _ => True
  | .unk fc _ => fc ∉ namedCodes

end Sys2Proof
end

