-- ==== Sys2Proof/Decode.lean ====
section
/-! DEFINITION. Bytes to requests and back: big-endian fields (R95), the unpack of 12 bytes (R90, R141), the function-code
map (R100, R101), the same map as the 96-bit match and mask table (R102), and the encoder (R114). -/

namespace Sys2Proof

/-- `BE16(v)`: `v[15:8]` then `v[7:0]` (R13, R95). -/
def be16 (v : Word) : List Byte := [v.extractLsb' 8 8, v.extractLsb' 0 8]

/-- `UBE16(b0, b1) = b0 * 256 + b1` (R13, R95); at most 65535, so nothing is lost (R231). -/
def ube16 (b0 b1 : Byte) : Word := BitVec.ofNat 16 (b0.toNat * 256 + b1.toNat)

/-- The field values of a request with function code `fc`. -/
def Request.toFields (r : Request) (fc : Byte) : Fields :=
  { tid := r.tid, pid := r.pid, len := r.len, uid := r.uid, fc := fc, addr := r.addr, qty := r.qty }

/-- The operands among the field values: all but the function code. -/
def Fields.toRequest (f : Fields) : Request :=
  { tid := f.tid, pid := f.pid, len := f.len, uid := f.uid, addr := f.addr, qty := f.qty }

/-- The function-code map: `FC` alone selects the operation (R100, R101); the last arm takes the unnamed codes (R208). -/
def Fields.toInstr (f : Fields) : Instr :=
  match f.fc.toNat with
  | 0x01 => .rc f.toRequest
  | 0x02 => .rdi f.toRequest
  | 0x03 => .rhr f.toRequest
  | 0x04 => .rir f.toRequest
  | 0x05 => .wsc f.toRequest
  | 0x06 => .wsr f.toRequest
  | 0x07 => .res f.toRequest
  | 0x08 => .diag f.toRequest
  | 0x0B => .gcec f.toRequest
  | 0x0C => .gcel f.toRequest
  | 0x0F => .wmc f.toRequest
  | 0x10 => .wmr f.toRequest
  | 0x11 => .rsid f.toRequest
  | 0x14 => .rfr f.toRequest
  | 0x15 => .wfr f.toRequest
  | 0x16 => .mwr f.toRequest
  | 0x17 => .rwmr f.toRequest
  | 0x18 => .rfq f.toRequest
  | _ => .unk f.fc f.toRequest

/-- The function code of a request (R101). -/
def Instr.fc (i : Instr) : Byte :=
  match i with
  | .rc _ => 0x01
  | .rdi _ => 0x02
  | .rhr _ => 0x03
  | .rir _ => 0x04
  | .wsc _ => 0x05
  | .wsr _ => 0x06
  | .res _ => 0x07
  | .diag _ => 0x08
  | .gcec _ => 0x0B
  | .gcel _ => 0x0C
  | .wmc _ => 0x0F
  | .wmr _ => 0x10
  | .rsid _ => 0x11
  | .rfr _ => 0x14
  | .wfr _ => 0x15
  | .mwr _ => 0x16
  | .rwmr _ => 0x17
  | .rfq _ => 0x18
  | .unk fc _ => fc

/-- The operands of a request. -/
def Instr.request (i : Instr) : Request :=
  match i with
  | .rc r | .rdi r | .rhr r | .rir r | .wsc r | .wsr r | .res r | .diag r | .gcec r | .gcel r | .wmc r | .wmr r
  | .rsid r | .rfr r | .wfr r | .mwr r | .rwmr r | .rfq r | .unk _ r => r

/-- The seven field values of a request. -/
def Instr.fields (i : Instr) : Fields := i.request.toFields i.fc

/-- The mnemonic of a request, as spec/opcode_table.json spells it (R101). -/
def Instr.mnemonic (i : Instr) : String :=
  match i with
  | .rc _ => "RC"
  | .rdi _ => "RDI"
  | .rhr _ => "RHR"
  | .rir _ => "RIR"
  | .wsc _ => "WSC"
  | .wsr _ => "WSR"
  | .res _ => "RES"
  | .diag _ => "DIAG"
  | .gcec _ => "GCEC"
  | .gcel _ => "GCEL"
  | .wmc _ => "WMC"
  | .wmr _ => "WMR"
  | .rsid _ => "RSID"
  | .rfr _ => "RFR"
  | .wfr _ => "WFR"
  | .mwr _ => "MWR"
  | .rwmr _ => "RWMR"
  | .rfq _ => "RFQ"
  | .unk _ _ => "UNK"

/-- Why bytes are no request: the one reason of R106 and R136. -/
inductive DecodeError where
  /-- `n` bytes are fewer than the 12 that are decoded. -/
  | frameTooShort (n : Nat)
  deriving DecidableEq, Repr

/-- The fields of the first 12 bytes (R90), and the trailing bytes (R108). -/
def unpackBytes (bs : List Byte) : Option (Fields × List Byte) :=
  match bs with
  | b0 :: b1 :: b2 :: b3 :: b4 :: b5 :: b6 :: b7 :: b8 :: b9 :: b10 :: b11 :: rest =>
    some ({ tid := ube16 b0 b1, pid := ube16 b2 b3, len := ube16 b4 b5, uid := b6, fc := b7,
            addr := ube16 b8 b9, qty := ube16 b10 b11 }, rest)
  | _ => none

/-- The request at the head of a frame and the trailing bytes, or why there is none; total on any bytes. -/
def decode (bs : List Byte) : Except DecodeError (Instr × List Byte) :=
  match unpackBytes bs with
  | some (f, rest) => .ok (f.toInstr, rest)
  | none => .error (.frameTooShort bs.length)

/-! ### The encoder -/

/-- The 12 bytes of the seven fields, in wire order (R90, R114). -/
def Fields.bytes (f : Fields) : List Byte :=
  be16 f.tid ++ be16 f.pid ++ be16 f.len ++ [f.uid] ++ [f.fc] ++ be16 f.addr ++ be16 f.qty

/-- The words of a request: what its mnemonic form assembles to, without a tail (R114). -/
def encode (i : Instr) : List Byte := i.fields.bytes

/-- A request in mnemonic form with trailing bytes (R114). -/
def assemble (i : Instr) (tail : List Byte) : List Byte := encode i ++ tail

/-! ### The match and mask table -/

/-- A row of spec/opcode_table.json: 96-bit match and mask over format REQ12 (R102). -/
structure OpcodeRow where
  mnemonic : String
  pattern  : BitVec 96
  mask     : BitVec 96
  deriving DecidableEq, Repr

/-- The mask that selects byte 7 alone. -/
def fcMask : BitVec 96 := 0x0000000000000000FF00000000

/-- The 19 rows in the order of the file (R102). -/
def opcodeTable : List OpcodeRow :=
  [ ⟨"RC",   0x000000000000000100000000, fcMask⟩, ⟨"RDI",  0x000000000000000200000000, fcMask⟩,
    ⟨"RHR",  0x000000000000000300000000, fcMask⟩, ⟨"RIR",  0x000000000000000400000000, fcMask⟩,
    ⟨"WSC",  0x000000000000000500000000, fcMask⟩, ⟨"WSR",  0x000000000000000600000000, fcMask⟩,
    ⟨"RES",  0x000000000000000700000000, fcMask⟩, ⟨"DIAG", 0x000000000000000800000000, fcMask⟩,
    ⟨"GCEC", 0x000000000000000B00000000, fcMask⟩, ⟨"GCEL", 0x000000000000000C00000000, fcMask⟩ ] ++
  [ ⟨"WMC",  0x000000000000000F00000000, fcMask⟩, ⟨"WMR",  0x000000000000001000000000, fcMask⟩,
    ⟨"RSID", 0x000000000000001100000000, fcMask⟩, ⟨"RFR",  0x000000000000001400000000, fcMask⟩,
    ⟨"WFR",  0x000000000000001500000000, fcMask⟩, ⟨"MWR",  0x000000000000001600000000, fcMask⟩,
    ⟨"RWMR", 0x000000000000001700000000, fcMask⟩, ⟨"RFQ",  0x000000000000001800000000, fcMask⟩,
    ⟨"UNK",  0x000000000000000000000000, 0x000000000000000000000000⟩ ]

/-- The mnemonic of the first row a 96-bit frame matches: `(frame12 & mask) = match` (R102). -/
def tableMnemonic (x : BitVec 96) : Option String :=
  (opcodeTable.find? fun row => x &&& row.mask == row.pattern).map OpcodeRow.mnemonic

/-- The 96-bit string of the seven fields: bit 95 is bit 7 of byte 0 (R90). -/
def Fields.bits (f : Fields) : BitVec 96 := f.tid ++ f.pid ++ f.len ++ f.uid ++ f.fc ++ f.addr ++ f.qty

/-- The 12 bytes of a 96-bit string, byte 0 first: byte `k` is bits `95 - 8k : 88 - 8k` (R90). -/
def bytesOfBits (x : BitVec 96) : List Byte :=
  [ x.extractLsb' 88 8, x.extractLsb' 80 8, x.extractLsb' 72 8, x.extractLsb' 64 8, x.extractLsb' 56 8,
    x.extractLsb' 48 8, x.extractLsb' 40 8, x.extractLsb' 32 8, x.extractLsb' 24 8, x.extractLsb' 16 8,
    x.extractLsb' 8 8, x.extractLsb' 0 8 ]

/-- The 12 bytes of the low `nbits` bits of `w`, numbered as spec/opcode_table.json numbers them, every bit above them 0;
none above 96 bits, which no row has (log entry 10). -/
def tableWordBytes (nbits w : Nat) : Option (List Byte) :=
  if nbits ≤ 96 then some (bytesOfBits (BitVec.ofNat 96 (w % 2 ^ nbits))) else none

/-- The request the decoder reads from the bits `w` of a row of spec/opcode_table.json. -/
def decodeTableWord (nbits w : Nat) : Option Instr :=
  match tableWordBytes nbits w with
  | some bs =>
    match decode bs with
    | .ok (i, _) => some i
    | .error _ => none
  | none => none

end Sys2Proof
end

