-- ==== Sys2Proof/Config.lean ====
section
/-! DEFINITION. The configuration straps (R9) as the read-only vector `CFG` of R40, and the two profiles of R7. No free
value is needed: the spec leaves no result undefined while the block goes on. -/

namespace Sys2Proof

/-- `QTY_POLICY`: reject a quantity of 0 or above 125, or keep the reference's truncated byte count (R9, D4). -/
inductive QtyPolicy where
  | strict
  | reference
  deriving DecidableEq, Repr

/-- `STORE_MODE`: where register data comes from (R9, D9). -/
inductive StoreMode where
  | placeholder
  | capability
  deriving DecidableEq, Repr

/-- The configuration vector `CFG` (R40). A Bool field is `ON` when true. Every field's default is the strap's
default of R9. -/
structure Cfg where
  bufCap    : Nat := 512
  qtyPolicy : QtyPolicy := .strict
  pidCheck  : Bool := false
  lenCheck  : Bool := false
  multiReq  : Bool := true
  storeMode : StoreMode := .placeholder
  deriving DecidableEq, Repr

/-- The default profile of R7: every strap at its default. -/
def Cfg.defaultProfile : Cfg := { }

/-- The reference profile of R7. -/
def Cfg.referenceProfile : Cfg := { qtyPolicy := .reference, multiReq := false }

end Sys2Proof
end

