-- ==== Sys2Proof/Machine/Constants.lean ====
section
/-! DEFINITION. The constants of R8, and which strap combinations are configurations (R9). -/

namespace Sys2Proof.Machine

/-- `HDR_LEN`: bytes of the MBAP header. -/
abbrev hdrLen : Nat := 7

/-- `MIN_FRAME`: fewest received bytes a frame may have. -/
abbrev minFrame : Nat := 12

/-- `FC_RHR`: the one recognised function code. -/
abbrev fcRhr : Byte := 0x03

/-- `EXC_BIT`: the mask OR-ed into the function code of an exception reply. -/
abbrev excBit : Byte := 0x80

/-- `EXC_ILLEGAL_FUNCTION`. -/
abbrev excIllegalFunction : Byte := 0x01

/-- `EXC_ILLEGAL_DATA_ADDRESS`. -/
abbrev excIllegalDataAddress : Byte := 0x02

/-- `EXC_ILLEGAL_DATA_VALUE`. -/
abbrev excIllegalDataValue : Byte := 0x03

/-- `MAX_QTY`: the largest quantity of registers under `STRICT`. -/
abbrev maxQty : Nat := 125

/-- The largest quantity whose length field fits 16 bits under `REFERENCE` (R174). -/
abbrev maxReferenceQty : Nat := 32766

/-- `PLACEHOLDER_WORD`: the value of every register without a store. -/
abbrev placeholderWord : Word := 0x1234

/-- `PROTOCOL_MODBUS`: the protocol_id the check of R143 asks for. -/
abbrev protocolModbus : Word := 0

/-- The largest value of the 16-bit length field (R228). -/
abbrev maxLength : Nat := 65535

/-- The legal strap combinations: `BUF_CAP >= 12`, and not `REFERENCE` together with `CAPABILITY` (R9). -/
def cfgLegal (c : Cfg) : Bool :=
  decide (minFrame ≤ c.bufCap) && !(c.qtyPolicy == .reference && c.storeMode == .capability)

end Sys2Proof.Machine
end

