-- ==== Sys2Proof/Machine/State.lean ====
section
/-! DEFINITION. The machine's state (10_state.md), the reasons a step can stop, and the state after reset (R50). -/

namespace Sys2Proof.Machine

/-- The sequencer state `st`, the block's program counter (R30). -/
inductive St where
  | idle
  | recv
  | decode
  | dispatch
  | exec
  | encode
  | send
  | closed
  deriving DecidableEq, Repr

/-- The dispatcher state `disp` (R35). -/
inductive Disp where
  | none
  | recognized
  | unrecognized
  deriving DecidableEq, Repr

/-- `err`: why a connection ended without, or before finishing, a response (R37). -/
inductive Err where
  | none
  | frameTooShort
  | unsupportedProtocol
  | frameTruncated
  | rxFail
  | txFail
  deriving DecidableEq, Repr

/-- A byte-addressed memory in one canonical form: addresses strictly rising; an address not listed holds no value
(R45, R50). -/
abbrev Memory := List Host.Cell

/-- A record of the log port (R146, R296); `name` is the 5-bit index of R297. The timestamp is the logger's. -/
structure LogRecord where
  tid  : Word
  pid  : Word
  len  : Word
  uid  : Byte
  fc   : Byte
  name : BitVec 5
  addr : Word
  qty  : Word
  deriving DecidableEq, Repr

/-- The exchanges of the block with its surroundings (R242). A `StoreRead` is two events, its request and its answer. -/
inductive Event where
  | rxByte (b : Byte) (last : Bool)
  | rxEof
  | rxErr
  | log (r : LogRecord)
  | storeRead (start count : Word)
  /-- `some w` is `Ok(w)`, `none` is `Err(AddressError)` (R70). -/
  | storeAnswer (result : Option (List Word))
  | txByte (b : Byte) (last : Bool)
  | txErr
  | reset
  deriving DecidableEq, Repr

/-- The levels at the block's input pins: the straps (R9), the ingress levels (R132), the egress inputs (R224) and the
store port's inputs (R294). -/
structure Pins where
  straps      : Cfg := Cfg.defaultProfile
  rxEof       : Bool := false
  rxErr       : Bool := false
  txReady     : Bool := false
  txErr       : Bool := false
  srDone      : Bool := false
  srOk        : Bool := false
  srWordValid : Bool := false
  srWord      : Word := 0
  deriving DecidableEq, Repr

/-- What the surroundings do before one step: assert `rst` or `conn_open` (R310), discard the bytes waiting in the
transport (R312), offer more bytes with their chunk-end marks (R131), and set the levels. -/
structure Stim where
  rst      : Bool := false
  connOpen : Bool := false
  discard  : Bool := false
  bytes    : List (Byte × Bool) := []
  pins     : Pins := { }
  deriving DecidableEq, Repr

/-- The state of one instance and of its ports. The first thirteen fields are the block's own (10_state.md, R243, R294);
`pins`, `rxq` and `inputs` are its surroundings as plain data (R47, R48; log entry 3); `trace` is the sequence of events so
far (R242, R250). -/
structure State where
  /-- `CFG`, sampled from the straps at reset (R40). -/
  cfg     : Cfg
  st      : St
  rxCnt   : Nat
  txLen   : Nat
  txCnt   : Nat
  disp    : Disp
  exc     : Byte
  err     : Err
  /-- The seven field registers, written all at once (R21); `none` while they hold no value (R22). -/
  fields  : Option Fields
  rx      : Memory
  pdu     : List Byte
  adu     : List Byte
  /-- A `StoreRead` has been issued and not answered (R243, R294). -/
  srBusy  : Bool
  /-- The words the store port has delivered for it, in address order (R294). -/
  srWords : List Word
  pins    : Pins
  /-- Bytes waiting in the transport, next first, each with its chunk-end mark (R47, R132). -/
  rxq     : List (Byte × Bool)
  /-- What the surroundings do at the coming steps, next first. -/
  inputs  : List Stim
  /-- The events so far, oldest first. -/
  trace   : List Event
  deriving DecidableEq, Repr

/-- Why a step faults. All are safe, and none is raised from a state that satisfies the invariant `State.Inv`. -/
inductive Fault where
  /-- Raised by the Frame Reader on a byte for `RX[BUF_CAP]` or above, which does not exist (R61). Safe. -/
  | rxOutOfRange
  /-- Raised by the unpack on an `RX` byte that holds no value (R62, R45). Safe. -/
  | rxHoldsNoValue
  /-- Raised on a read of a field register that holds no value: a model fault by R22. Safe. -/
  | fieldHoldsNoValue
  /-- Raised in `EXEC` when `disp` does not classify the request in hand (R164 says it cannot occur). Safe. -/
  | execWithoutDispatch
  /-- Raised in `ENCODE` when `1 + len(pdu)` exceeds 65535 (R228 says it cannot occur). Safe. -/
  | lengthOverflow
  /-- Raised in `SEND` when `TX[tx_cnt]` does not exist (R224). Safe. -/
  | txOutOfRange
  deriving DecidableEq, Repr

/-- Why a step is refused. All are safe: the spec gives these inputs no meaning. -/
inductive Refusal where
  /-- An instruction without a meaning, rejected by exec's arm. Safe. -/
  | notModelled (mnemonic : String)
  /-- Raised by RHR under QTY_POLICY=REFERENCE for a quantity above 32766: outcome Refuse (R174). Safe. -/
  | quantityBeyondLengthField
  /-- Raised by RHR when the store answers Ok with a wrong number of words (R70). Safe. -/
  | storeContractBroken
  /-- Raised by every step under straps that are no configuration of this hardware (R9). Safe. -/
  | illegalStraps
  deriving DecidableEq, Repr

/-- The state after reset (R50) under the default profile, with nothing offered at the ports. -/
def State.reset : State :=
  { cfg := Cfg.defaultProfile, st := .idle, rxCnt := 0, txLen := 0, txCnt := 0, disp := .none, exc := 0x00,
    err := .none, fields := none, rx := [], pdu := [], adu := [], srBusy := false, srWords := [],
    pins := { }, rxq := [], inputs := [], trace := [] }

end Sys2Proof.Machine
end

