-- ==== Sys2Proof/Machine/Ops.lean ====
section
/-! DEFINITION. The named operations over memory and state: the `RX` memory (R45, R62), the `TX` byte sequence (R64), the
exception reply and the drop (R284, R285), the end of a request (R51, R286), reset (R310) and the sampling of inputs. -/

namespace Sys2Proof.Machine

/-! ### The byte memory -/

/-- The canonical form: addresses strictly rising. -/
abbrev Memory.wf (m : Memory) : Prop := m.Pairwise fun x y => x.1 < y.1

/-- The byte at an address, if it holds a value. -/
def Memory.read : Memory → Nat → Option Byte
  | [], _ => none
  | (k, v) :: m, a => if a = k then some v else Memory.read m a

/-- The memory with one byte written, in canonical form again. -/
def Memory.write : Memory → Nat → Byte → Memory
  | [], a, b => [(a, b)]
  | (k, v) :: m, a, b =>
    if a < k then (a, b) :: (k, v) :: m
    else if a = k then (a, b) :: m
    else (k, v) :: Memory.write m a b

/-- A memory that holds a byte sequence at `base` and up, and nothing else. -/
def Memory.ofBytes (base : Nat) : List Byte → Memory
  | [] => []
  | b :: bs => (base, b) :: Memory.ofBytes (base + 1) bs

/-- The first `n` bytes of a memory, if each holds a value. -/
def Memory.firstBytes (m : Memory) : Nat → Option (List Byte)
  | 0 => some []
  | n + 1 => (Memory.firstBytes m n).bind fun bs => (m.read n).map fun b => bs ++ [b]

/-! ### The receive buffer -/

/-- `MemRead(RX, off, 1)`, defined only below `rx_cnt` (R62). -/
def State.memReadByte (s : State) (off : Nat) : Option Byte :=
  if off + 1 ≤ s.rxCnt then s.rx.read off else none

/-- `MemRead(RX, off, 2)`: big-endian, defined only below `rx_cnt` (R62, R65). -/
def State.memReadWord (s : State) (off : Nat) : Option Word :=
  match s.memReadByte off, s.memReadByte (off + 1) with
  | some b0, some b1 => some (ube16 b0 b1)
  | _, _ => none

/-- `RX[rx_cnt] <- b; rx_cnt <- rx_cnt + 1` (R132), if `RX` has that byte (R61). -/
def State.storeRxByte (s : State) (b : Byte) : Option State :=
  if s.rxCnt < s.cfg.bufCap then some { s with rx := s.rx.write s.rxCnt b, rxCnt := s.rxCnt + 1 } else none

/-! ### The response sequence -/

/-- `MemWrite(TX, off, 1, b)` (R64) on the bytes written so far: in place, or at the end; no hole is left. -/
def memWriteByte (tx : List Byte) (off : Nat) (b : Byte) : Option (List Byte) :=
  if off < tx.length then some (tx.set off b)
  else if off = tx.length then some (tx ++ [b])
  else none

/-- `MemWrite(TX, off, 2, v)`: the high byte at `off`, the low byte after it (R64, R65). -/
def memWriteWord (tx : List Byte) (off : Nat) (v : Word) : Option (List Byte) :=
  (memWriteByte tx off (v.extractLsb' 8 8)).bind fun t => memWriteByte t (off + 1) (v.extractLsb' 0 8)

/-- `for k: MemWrite(TX, off + k, 1, bs[k])` (R221). -/
def memWriteBytes (tx : List Byte) (off : Nat) : List Byte → Option (List Byte)
  | [] => some tx
  | b :: bs => (memWriteByte tx off b).bind fun t => memWriteBytes t (off + 1) bs

/-! ### Small updates of the state -/

/-- Appends an event to the trace (R242). -/
def State.emit (s : State) (e : Event) : State := { s with trace := s.trace ++ [e] }

/-- `st <- S` (R13). -/
def State.goto (s : State) (st : St) : State := { s with st := st }

/-- The unpack's seven writes, all at once (R21, R141). -/
def State.latchFields (s : State) (f : Fields) : State := { s with fields := some f }

/-- The store port takes the read request: `sr_req` (R294), the event `StoreRead` (R242). -/
def State.issueStoreRead (s : State) (start count : Word) : State :=
  { s with srBusy := true, trace := s.trace ++ [.storeRead start count] }

/-- The store port's answer is complete: nothing is outstanding any more (R294). -/
def State.closeStoreRead (s : State) (result : Option (List Word)) : State :=
  { s with srBusy := false, srWords := [], trace := s.trace ++ [.storeAnswer result] }

/-! ### Responses, exception replies, drops -/

/-- How every handler ends: `pdu` and `exc` written, `st <- ENCODE` (R164). -/
def State.reply (s : State) (pdu : List Byte) (exc : Byte) : State :=
  { s with pdu := pdu, exc := exc, st := .encode }

/-- Takes a Modbus exception: `pdu <- [FC | 0x80, code]; exc <- code; st <- ENCODE`. Nothing is saved, no mode changes,
the field registers keep their values (R272 to R274, R284, R98). -/
def State.raiseReply (s : State) (fc code : Byte) : State := s.reply [fc ||| excBit, code] code

/-- Takes a drop: `err` written, `st <- CLOSED`, the field registers hold no value from then on; `rx_cnt`, `tx_cnt`,
`tx_len`, `disp` and `exc` keep their values (R285, R51). No copy of the offending frame is kept: `RX` holds no value
(R270), and `pdu` and `adu` are empty, which is DEDUCED from what R270 says remains (log entry 2). -/
def State.drop (s : State) (e : Err) : State :=
  { s with err := e, st := .closed, fields := none, rx := [], pdu := [], adu := [] }

/-- The end of an answered request, the only return from an exception reply: every item of R50 but `st`, `err` and `CFG`
takes its reset value (R51, R286). -/
def State.reinit (s : State) : State :=
  { s with rxCnt := 0, txLen := 0, txCnt := 0, disp := .none, exc := 0x00, fields := none, rx := [], pdu := [],
           adu := [], srBusy := false, srWords := [] }

/-! ### Reset and inputs -/

/-- Whether `rst` or `conn_open` is asserted at this step (R310). -/
def State.resetRequested (s : State) : Bool :=
  match s.inputs with
  | [] => false
  | x :: _ => x.rst || x.connOpen

/-- The surroundings act: the head of `inputs` is applied to the transport and the pins. With no head, every level holds
and nothing more is offered (log entry 3). -/
def State.sample (s : State) : State :=
  match s.inputs with
  | [] => s
  | x :: xs => { s with inputs := xs, pins := x.pins, rxq := (if x.discard then [] else s.rxq) ++ x.bytes }

/-- Reset (R310): all state takes the values of R50, the straps are sampled, and the transport's level conditions are
cleared (R281). -/
def State.resetBlock (s : State) : State :=
  { s with cfg := s.pins.straps, st := .idle, rxCnt := 0, txLen := 0, txCnt := 0, disp := .none, exc := 0x00,
           err := .none, fields := none, rx := [], pdu := [], adu := [], srBusy := false, srWords := [],
           pins := { s.pins with rxEof := false, rxErr := false, txErr := false }, trace := s.trace ++ [.reset] }

end Sys2Proof.Machine
end

