-- ==== Sys2Proof/Machine/Operands.lean ====
section
/-! DEFINITION. Operand forms: the request in the field registers, the fields of the receive buffer, and the bytes a
handler makes from register values (R141, R170 to R177). -/

namespace Sys2Proof.Machine

/-- The unpack's reads: seven `MemRead`s at the fixed offsets 0, 2, 4, 6, 7, 8 and 10 (R141). -/
def State.unpack (s : State) : Option Fields :=
  match s.memReadWord 0, s.memReadWord 2, s.memReadWord 4, s.memReadByte 6, s.memReadByte 7, s.memReadWord 8,
    s.memReadWord 10 with
  | some tid, some pid, some len, some uid, some fc, some addr, some qty =>
    some { tid := tid, pid := pid, len := len, uid := uid, fc := fc, addr := addr, qty := qty }
  | _, _, _, _, _, _, _ => none

/-- `bc = trunc_8(2 * QTY)` (R173). -/
def byteCount (qty : Word) : Byte := BitVec.ofNat 8 (2 * qty.toNat)

/-- Register values as data bytes, big-endian, in order (R177). -/
def dataBytes (ws : List Word) : List Byte := ws.flatMap be16

/-- The success PDU `[0x03, bc] ++ data` (R177). -/
def successPdu (qty : Word) (ws : List Word) : List Byte := fcRhr :: byteCount qty :: dataBytes ws

/-- The placeholder generator: `QTY` values, each 0x1234, whatever `ADDR` is (R72, R175). -/
def placeholderWords (qty : Word) : List Word := List.replicate qty.toNat placeholderWord

/-- The words delivered for the outstanding `StoreRead`, the one at the port in this step among them (R294). -/
def State.collectedWords (s : State) : List Word :=
  if s.pins.srWordValid then s.srWords ++ [s.pins.srWord] else s.srWords

end Sys2Proof.Machine
end

