-- ==== Sys2Proof/Machine/Flags.lean ====
section
/-! DEFINITION. Flag computations: the classification `disp` (R161), the checks that decide `err` (R136, R143, R144) and
`exc` (R172), the name index of the log port (R297), and the numeric codes of the states and flags (R30, R37, R40). -/

namespace Sys2Proof.Machine

/-- The dispatcher's classification: 0x03 is recognised, every other code is not (R161). -/
def classify (fc : Byte) : Disp := if fc = fcRhr then .recognized else .unrecognized

/-- The quantity check of `STRICT`: 0 or above 125 is out of range (R172). -/
def quantityOutOfRange (qty : Word) : Bool := decide (qty.toNat = 0) || decide (maxQty < qty.toNat)

/-- Whether a Read Holding Registers request fails its quantity check (R171 step 1). -/
def quantityRejected (c : Cfg) (qty : Word) : Bool := c.qtyPolicy == .strict && quantityOutOfRange qty

/-- Whether a Read Holding Registers request is outside the domain of `REFERENCE` (R171 step 2, R174). -/
def quantityRefused (c : Cfg) (qty : Word) : Bool := c.qtyPolicy == .reference && decide (maxReferenceQty < qty.toNat)

/-- The optional checks after the unpack, in the order of R283: protocol id (R143), declared length under 6, fewer bytes
than declared (R144). The sum is a natural number (R231). -/
def fieldError (c : Cfg) (rxCnt : Nat) (f : Fields) : Option Err :=
  if c.pidCheck && decide (f.pid ≠ protocolModbus) then some .unsupportedProtocol
  else if c.lenCheck && decide (f.len.toNat < 6) then some .frameTooShort
  else if c.lenCheck && decide (rxCnt < 6 + f.len.toNat) then some .frameTruncated
  else none

/-! ### The log port's name table -/

/-- A row of the name table: `log_name`, the code, the name (R297). -/
structure NameRow where
  index : BitVec 5
  code  : Byte
  name  : String
  deriving DecidableEq, Repr

/-- The 18 named codes of R297. -/
def nameTable : List NameRow :=
  [ ⟨1,  0x01, "Read Coils"⟩, ⟨2,  0x02, "Read Discrete Inputs"⟩, ⟨3,  0x03, "Read Holding Registers"⟩,
    ⟨4,  0x04, "Read Input Registers"⟩, ⟨5,  0x05, "Write Single Coil"⟩, ⟨6,  0x06, "Write Single Register"⟩,
    ⟨7,  0x07, "Read Exception Status"⟩, ⟨8,  0x08, "Diagnostics"⟩, ⟨9,  0x0B, "Get Comm Event Counter"⟩ ] ++
  [ ⟨10, 0x0C, "Get Comm Event Log"⟩, ⟨11, 0x0F, "Write Multiple Coils"⟩, ⟨12, 0x10, "Write Multiple Registers"⟩,
    ⟨13, 0x11, "Report Server ID"⟩, ⟨14, 0x14, "Read File Record"⟩, ⟨15, 0x15, "Write File Record"⟩,
    ⟨16, 0x16, "Mask Write Register"⟩, ⟨17, 0x17, "Read/Write Multiple Registers"⟩, ⟨18, 0x18, "Read FIFO Queue"⟩ ]

/-- `log_name` of a function code: its index, or 0 for a code with no name (R297). -/
def nameIndex (fc : Byte) : BitVec 5 :=
  match nameTable.find? fun row => row.code == fc with
  | some row => row.index
  | none => 0

/-- The human-readable name of a function code (R297). -/
def functionName (fc : Byte) : String :=
  match nameTable.find? fun row => row.code == fc with
  | some row => row.name
  | none => "Unknown"

/-- The log record of a request's fields (R146, R296). -/
def logRecord (f : Fields) : LogRecord :=
  { tid := f.tid, pid := f.pid, len := f.len, uid := f.uid, fc := f.fc, name := nameIndex f.fc, addr := f.addr,
    qty := f.qty }

/-! ### Numeric codes -/

/-- The 3-bit code of `st` (R30). -/
def stCode (st : St) : BitVec 3 :=
  match st with
  | .idle => 0
  | .recv => 1
  | .decode => 2
  | .dispatch => 3
  | .exec => 4
  | .encode => 5
  | .send => 6
  | .closed => 7

/-- The code of `err` (R37). -/
def errCode (e : Err) : BitVec 3 :=
  match e with
  | .none => 0
  | .frameTooShort => 1
  | .unsupportedProtocol => 2
  | .frameTruncated => 3
  | .rxFail => 4
  | .txFail => 5

/-- The code of `CFG.QTY_POLICY` (R40). -/
def qtyPolicyCode (p : QtyPolicy) : BitVec 1 :=
  match p with
  | .strict => 0
  | .reference => 1

/-- The code of `CFG.STORE_MODE` (R40). -/
def storeModeCode (m : StoreMode) : BitVec 1 :=
  match m with
  | .placeholder => 0
  | .capability => 1

end Sys2Proof.Machine
end

