-- ==== Sys2Proof/Machine/AduDecoder.lean ====
section
/-! DEFINITION. State `DECODE` (R136, R140 to R147): the length check, the unpack, the log record, the optional checks. -/

namespace Sys2Proof.Machine

/-- The unpack and the log record, in that order (R141, R146). -/
def State.unpackAndLog (s : State) (f : Fields) : State := (s.latchFields f).emit (.log (logRecord f))

/-- `DECODE`: `FrameTooShort` by count before any read (R136, R138); else unpack, log, and the enabled checks (R143, R144),
then `DISPATCH` (R147). -/
def decodeStep (s : State) : Host.Outcome State Fault Refusal :=
  if s.rxCnt < minFrame then .next (s.drop .frameTooShort)
  else
    match s.unpack with
    | none => .fault .rxHoldsNoValue
    | some f =>
      match fieldError s.cfg s.rxCnt f with
      | some e => .next ((s.unpackAndLog f).drop e)
      | none => .next ((s.unpackAndLog f).goto .dispatch)

end Sys2Proof.Machine
end

