-- ==== Sys2Proof/Machine/IllegalFunction.lean ====
section
/-! DEFINITION. The illegal-function path (43_illegal_function.md): every function code but 0x03, as executed in state
`EXEC`. Each instruction is an instance of the one handler of R190. -/

namespace Sys2Proof.Machine

/-- The handler of R190: raises `IllegalFunction(FC)`. It reads neither `ADDR` nor `QTY` nor `LEN` (R211). -/
def illegalFunction (fc : Byte) (s : State) : Host.Outcome State Fault Refusal :=
  .next (s.raiseReply fc excIllegalFunction)

/-- `RC`, Read Coils (R191). -/
def execRc (_r : Request) (s : State) : Host.Outcome State Fault Refusal := illegalFunction 0x01 s

/-- `RDI`, Read Discrete Inputs (R192). -/
def execRdi (_r : Request) (s : State) : Host.Outcome State Fault Refusal := illegalFunction 0x02 s

/-- `RIR`, Read Input Registers (R193). -/
def execRir (_r : Request) (s : State) : Host.Outcome State Fault Refusal := illegalFunction 0x04 s

/-- `WSC`, Write Single Coil (R194). -/
def execWsc (_r : Request) (s : State) : Host.Outcome State Fault Refusal := illegalFunction 0x05 s

/-- `WSR`, Write Single Register (R195). -/
def execWsr (_r : Request) (s : State) : Host.Outcome State Fault Refusal := illegalFunction 0x06 s

/-- `RES`, Read Exception Status (R196). -/
def execRes (_r : Request) (s : State) : Host.Outcome State Fault Refusal := illegalFunction 0x07 s

/-- `DIAG`, Diagnostics (R197). -/
def execDiag (_r : Request) (s : State) : Host.Outcome State Fault Refusal := illegalFunction 0x08 s

/-- `GCEC`, Get Comm Event Counter (R198). -/
def execGcec (_r : Request) (s : State) : Host.Outcome State Fault Refusal := illegalFunction 0x0B s

/-- `GCEL`, Get Comm Event Log (R199). -/
def execGcel (_r : Request) (s : State) : Host.Outcome State Fault Refusal := illegalFunction 0x0C s

/-- `WMC`, Write Multiple Coils (R200). -/
def execWmc (_r : Request) (s : State) : Host.Outcome State Fault Refusal := illegalFunction 0x0F s

/-- `WMR`, Write Multiple Registers (R201). -/
def execWmr (_r : Request) (s : State) : Host.Outcome State Fault Refusal := illegalFunction 0x10 s

/-- `RSID`, Report Server ID (R202). -/
def execRsid (_r : Request) (s : State) : Host.Outcome State Fault Refusal := illegalFunction 0x11 s

/-- `RFR`, Read File Record (R203). -/
def execRfr (_r : Request) (s : State) : Host.Outcome State Fault Refusal := illegalFunction 0x14 s

/-- `WFR`, Write File Record (R204). -/
def execWfr (_r : Request) (s : State) : Host.Outcome State Fault Refusal := illegalFunction 0x15 s

/-- `MWR`, Mask Write Register (R205). -/
def execMwr (_r : Request) (s : State) : Host.Outcome State Fault Refusal := illegalFunction 0x16 s

/-- `RWMR`, Read/Write Multiple Registers (R206). -/
def execRwmr (_r : Request) (s : State) : Host.Outcome State Fault Refusal := illegalFunction 0x17 s

/-- `RFQ`, Read FIFO Queue (R207). -/
def execRfq (_r : Request) (s : State) : Host.Outcome State Fault Refusal := illegalFunction 0x18 s

/-- `UNK`, every code the map does not name (R208); for a code with bit 7 set the reply carries the code itself (R209). -/
def execUnk (fc : Byte) (_r : Request) (s : State) : Host.Outcome State Fault Refusal := illegalFunction fc s

end Sys2Proof.Machine
end

