-- ==== Sys2Proof/Machine/ReadHolding.lean ====
section
/-! DEFINITION. Read Holding Registers, the one recognised function (42_read_holding_registers.md), as executed in state
`EXEC`. -/

namespace Sys2Proof.Machine

/-- The success path: register values into `pdu`, `exc <- 0x00`, `st <- ENCODE` (R171 step 4, R177). -/
def State.replyWords (s : State) (qty : Word) (ws : List Word) : State := s.reply (successPdu qty ws) 0x00

/-- The `StoreRead(ADDR, QTY)` is issued once; while it is outstanding the request stands (R176, R294). -/
def State.requestStore (s : State) (addr qty : Word) : State :=
  if s.srBusy then s else s.issueStoreRead addr qty

/-- One step of the store read: the port's answer, or the wait for it (R171 step 3, R243, R294). `Ok` with a number of
words other than `QTY` breaks the store's contract and is refused (R70). -/
def storeReadStep (addr qty : Word) (s : State) : Host.Outcome State Fault Refusal :=
  if s.pins.srDone then
    if s.pins.srOk then
      if s.collectedWords.length = qty.toNat then
        .next (((s.requestStore addr qty).closeStoreRead (some s.collectedWords)).replyWords qty s.collectedWords)
      else .refused .storeContractBroken
    else
      .next (((s.requestStore addr qty).closeStoreRead none).raiseReply fcRhr excIllegalDataAddress)
  else .next { s.requestStore addr qty with srWords := s.collectedWords }

/-- `RHR`, Read Holding Registers, 0x03 (R170, R171): quantity check, domain of `REFERENCE`, register data, success PDU,
in that order. -/
def execRhr (r : Request) (s : State) : Host.Outcome State Fault Refusal :=
  if quantityRejected s.cfg r.qty then .next (s.raiseReply fcRhr excIllegalDataValue)
  else if quantityRefused s.cfg r.qty then .refused .quantityBeyondLengthField
  else
    match s.cfg.storeMode with
    | .placeholder => .next (s.replyWords r.qty (placeholderWords r.qty))
    | .capability =>
      if s.cfg.qtyPolicy = .reference then .refused .illegalStraps else storeReadStep r.addr r.qty s

end Sys2Proof.Machine
end

