-- ==== Sys2Proof/Machine/Dispatch.lean ====
section
/-! DEFINITION. The handler selected in state `EXEC` (R164): one arm per instruction of the function-code map. -/

namespace Sys2Proof.Machine

/-- The meaning of each request in state `EXEC`: its handler (R164, R171, R190). -/
def exec (i : Instr) (s : State) : Host.Outcome State Fault Refusal :=
  match i with
  | .rc r => Sys2Proof.Machine.execRc r s
  | .rdi r => Sys2Proof.Machine.execRdi r s
  | .rhr r => Sys2Proof.Machine.execRhr r s
  | .rir r => Sys2Proof.Machine.execRir r s
  | .wsc r => Sys2Proof.Machine.execWsc r s
  | .wsr r => Sys2Proof.Machine.execWsr r s
  | .res r => Sys2Proof.Machine.execRes r s
  | .diag r => Sys2Proof.Machine.execDiag r s
  | .gcec r => Sys2Proof.Machine.execGcec r s
  | .gcel r => Sys2Proof.Machine.execGcel r s
  | .wmc r => Sys2Proof.Machine.execWmc r s
  | .wmr r => Sys2Proof.Machine.execWmr r s
  | .rsid r => Sys2Proof.Machine.execRsid r s
  | .rfr r => Sys2Proof.Machine.execRfr r s
  | .wfr r => Sys2Proof.Machine.execWfr r s
  | .mwr r => Sys2Proof.Machine.execMwr r s
  | .rwmr r => Sys2Proof.Machine.execRwmr r s
  | .rfq r => Sys2Proof.Machine.execRfq r s
  | .unk fc r => Sys2Proof.Machine.execUnk fc r s

end Sys2Proof.Machine
end

