-- ==== Sys2Proof/Machine/FrameReader.lean ====
section
/-! DEFINITION. The Frame Reader (R130 to R138) in states `IDLE` and `RECV`: one step takes one byte, sees the end or the
failure of the stream, or waits. -/

namespace Sys2Proof.Machine

/-- Whether the byte that made `rx_cnt` what it is ends the chunk: it was marked last, or the buffer is full (R133 a, b). -/
def chunkEnds (s : State) (last : Bool) : Bool := last || decide (s.rxCnt = s.cfg.bufCap)

/-- Byte acceptance (R132): the byte leaves the transport and is stored; then `RECV`, or `DECODE` at the chunk's end. -/
def acceptByte (b : Byte) (last : Bool) (rest : List (Byte × Bool)) (s : State) :
    Host.Outcome State Fault Refusal :=
  match s.storeRxByte b with
  | none => .fault .rxOutOfRange
  | some t => .next (({ t with rxq := rest }.emit (.rxByte b last)).goto (if chunkEnds t last then .decode else .recv))

/-- A read failure: the bytes received are discarded, `err <- RX_FAIL` (R135, R278). -/
def readFailure (s : State) : State := (s.emit .rxErr).drop .rxFail

/-- `IDLE` (R132, R134, R135): the failure first, then an offered byte, then the end of the stream, else a wait. -/
def idleStep (s : State) : Host.Outcome State Fault Refusal :=
  if s.pins.rxErr then .next (readFailure s)
  else
    match s.rxq with
    | (b, last) :: rest => acceptByte b last rest s
    | [] => if s.pins.rxEof then .next ((s.emit .rxEof).goto .closed) else .next s

/-- `RECV` (R132, R133, R135): as `IDLE`, but the end of the stream ends the chunk (R133 c). -/
def recvStep (s : State) : Host.Outcome State Fault Refusal :=
  if s.pins.rxErr then .next (readFailure s)
  else
    match s.rxq with
    | (b, last) :: rest => acceptByte b last rest s
    | [] => if s.pins.rxEof then .next ((s.emit .rxEof).goto .decode) else .next s

end Sys2Proof.Machine
end

