-- ==== Sys2Proof/Machine/FunctionDispatcher.lean ====
section
/-! DEFINITION. The Function Dispatcher (R160 to R164): the classification in state `DISPATCH`, and which request the
handler of state `EXEC` is given. -/

namespace Sys2Proof.Machine

/-- `DISPATCH`: `disp` from `FC` alone, `st <- EXEC` (R161). -/
def dispatchStep (s : State) : Host.Outcome State Fault Refusal :=
  match s.fields with
  | none => .fault .fieldHoldsNoValue
  | some f => .next ({ s with disp := classify f.fc }.goto .exec)

/-- The request in hand in `EXEC`: the field registers, if `disp` classifies them (R164); log entry 8. -/
def State.currentRequest (s : State) : Option Instr :=
  match s.fields with
  | none => none
  | some f => if s.disp = classify f.fc then some f.toInstr else none

end Sys2Proof.Machine
end

