-- ==== Sys2Proof/Machine/ResponseEncoder.lean ====
section
/-! DEFINITION. The Response Encoder (44_response_encoder.md): the build in state `ENCODE` and the emission in state
`SEND`. -/

namespace Sys2Proof.Machine

/-- The `MemWrite`s of R221, in its order; the length is computed, never copied (R222), and not truncated (R228). -/
def buildAdu (tid pid : Word) (uid : Byte) (pdu : List Byte) : Option (List Byte) :=
  if 1 + pdu.length ≤ maxLength then
    ((((memWriteWord [] 0 tid).bind fun t => memWriteWord t 2 pid).bind
      fun t => memWriteWord t 4 (BitVec.ofNat 16 (1 + pdu.length))).bind
      fun t => memWriteByte t 6 uid).bind
      fun t => memWriteBytes t hdrLen pdu
  else none

/-- `ENCODE`: `adu`, `tx_len <- 7 + len(pdu)`, `tx_cnt <- 0`, `st <- SEND` (R221). -/
def encodeStep (s : State) : Host.Outcome State Fault Refusal :=
  match s.fields with
  | none => .fault .fieldHoldsNoValue
  | some f =>
    match buildAdu f.tid f.pid f.uid s.pdu with
    | none => .fault .lengthOverflow
    | some adu => .next ({ s with adu := adu, txLen := hdrLen + s.pdu.length, txCnt := 0 }.goto .send)

/-- `tx_data`: `TX[tx_cnt]` (R224). -/
def State.txData (s : State) : Option Byte := if s.txCnt < s.txLen then s.adu[s.txCnt]? else none

/-- `tx_last`: 1 exactly when `tx_cnt = tx_len - 1` (R224). -/
def State.txLast (s : State) : Bool := decide (s.txCnt + 1 = s.txLen)

/-- The response is complete: per-request re-initialisation, then `IDLE` (R246) or `CLOSED` (R247). -/
def State.finishRequest (s : State) : State := s.reinit.goto (if s.cfg.multiReq then .idle else .closed)

/-- `SEND` (R224 to R226): the write failure first; a byte the peer takes is written, the last one ends the request; else
the byte stays offered. -/
def sendStep (s : State) : Host.Outcome State Fault Refusal :=
  if s.pins.txErr then .next ((s.emit .txErr).drop .txFail)
  else if s.pins.txReady then
    match s.txData with
    | none => .fault .txOutOfRange
    | some b =>
      if s.txLast then .next (s.emit (.txByte b true)).finishRequest
      else .next { s.emit (.txByte b false) with txCnt := s.txCnt + 1 }
  else .next s

end Sys2Proof.Machine
end

