-- ==== Sys2Proof/Machine/Sequencer.lean ====
section
/-! DEFINITION. The connection sequencer: the transition relation R241, one row (or one wait) a step, and how a request is
placed before the handlers for the host's question about one row of the opcode table. -/

namespace Sys2Proof.Machine

/-- `EXEC`: the handler of the request in hand (R164). -/
def execStep (s : State) : Host.Outcome State Fault Refusal :=
  match s.currentRequest with
  | none => .fault .execWithoutDispatch
  | some i => exec i s

/-- The block's transition from the sampled inputs: one row of R241 by the sequencer state; `CLOSED` has none (R248). -/
def transition (s : State) : Host.Outcome State Fault Refusal :=
  match s.st with
  | .idle => idleStep s
  | .recv => recvStep s
  | .decode => decodeStep s
  | .dispatch => dispatchStep s
  | .exec => execStep s
  | .encode => encodeStep s
  | .send => sendStep s
  | .closed => .next s

/-- One step: the surroundings act; reset has priority over everything (R310); straps that are no configuration are refused
(R9); else the transition. -/
def connectionStep (s : State) : Host.Outcome State Fault Refusal :=
  if s.resetRequested then .next s.sample.resetBlock
  else if cfgLegal s.sample.cfg then transition s.sample
  else .refused .illegalStraps

/-- The state with a 12-byte chunk received, unpacked and classified, so that the next step is its handler: what the steps
`RECV`, `DECODE` and `DISPATCH` leave (log entry 9). -/
def State.placeRequest (s : State) (f : Fields) : State :=
  { s with rx := Memory.ofBytes 0 f.bytes, rxCnt := minFrame, fields := some f, disp := classify f.fc, st := .exec,
           srBusy := false, srWords := [], inputs := [] }

/-- Places the request that the table word stands for (log entries 9 and 10). -/
def State.placeTableWord (s : State) (nbits w : Nat) : State :=
  match decodeTableWord nbits w with
  | some i => s.placeRequest i.fields
  | none => s

end Sys2Proof.Machine
end

