-- ==== Sys2Proof/Machine/Step.lean ====
section
/-! DEFINITION. One step of the machine. -/

namespace Sys2Proof.Machine

/-- One step: `connectionStep` (R241). -/
def step (s : State) : Host.Outcome State Fault Refusal := connectionStep s

/-- The state whose next step runs the request with the bits `w` of a row of spec/opcode_table.json. -/
def State.withFetchWord (s : State) (nbits w : Nat) : State := s.placeTableWord nbits w

end Sys2Proof.Machine
end

