-- ==== Sys2Proof/Machine/Instances.lean ====
section
/-! DEFINITION. Several instances, one per connection, each with all its state to itself (R298). Any interleaving is a
sequence of these steps; different connections are unordered (R80). -/

namespace Sys2Proof.Machine

/-- Instance `k` takes a step; the others are not touched (R289, R298). A list without an instance `k` stays as it is. -/
def stepInstance (k : Nat) (ss : List State) : Host.Outcome (List State) Fault Refusal :=
  match ss[k]? with
  | none => .next ss
  | some s =>
    match step s with
    | .next t => .next (ss.set k t)
    | .fault r => .fault r
    | .refused r => .refused r

end Sys2Proof.Machine
end

