-- ==== Sys2Proof/Machine/Ports.lean ====
section
/-! DEFINITION. What the surroundings can see: the output ports (R132, R224, R294, R296), the `STATUS` view (R41) and the
`CFG` view (R40). All are functions of the state; reading one changes nothing. -/

namespace Sys2Proof.Machine

/-- `rx_ready`: 1 exactly in `IDLE` and `RECV` (R132). -/
def State.rxReady (s : State) : Bool := s.st == .idle || s.st == .recv

/-- `tx_valid`: 1 exactly in `SEND` (R224). -/
def State.txValid (s : State) : Bool := s.st == .send

/-- `sr_req`, `sr_start`, `sr_count`: the store read requested in `EXEC`, only for function 0x03 with a valid quantity and
`STORE_MODE=CAPABILITY` (R70, R294). DESIGN CHOICE (log entry 5): R294 does not say whether `sr_req` is a strobe; here it
stays 1, with the same operands, in every `EXEC` step up to and including that of the answer. DESIGN CHOICE (log entry
20): it is 0 in a step in which a reset is asserted. -/
def State.storeRequest (s : State) : Option (Word × Word) :=
  match s.st, s.currentRequest with
  | .exec, some (.rhr r) =>
    if s.resetRequested = false ∧ s.cfg.storeMode = .capability ∧ quantityRejected s.cfg r.qty = false ∧ quantityRefused s.cfg r.qty = false then
      some (r.addr, r.qty)
    else none
  | _, _ => none

/-- `log_valid` and the record: the one-step strobe of `DECODE`, once per unpacked request (R296). DESIGN CHOICE (log
entry 20): no strobe in a step in which a reset is asserted, since that step unpacks nothing. -/
def State.logPort (s : State) : Option LogRecord :=
  if s.resetRequested = false ∧ s.st = .decode ∧ minFrame ≤ s.rxCnt then s.unpack.map logRecord else none

/-- The read-only status view (R41). -/
structure Status where
  st     : BitVec 3
  disp   : Disp
  exc    : Byte
  err    : BitVec 3
  rxCnt  : Nat
  fields : Option Fields
  deriving DecidableEq, Repr

/-- `STATUS` (R41), with the codes of R30 and R37. -/
def State.status (s : State) : Status :=
  { st := stCode s.st, disp := s.disp, exc := s.exc, err := errCode s.err, rxCnt := s.rxCnt, fields := s.fields }

/-- The read-only configuration view, with the bit codes of R40. -/
structure CfgView where
  bufCap    : Nat
  qtyPolicy : BitVec 1
  pidCheck  : BitVec 1
  lenCheck  : BitVec 1
  multiReq  : BitVec 1
  storeMode : BitVec 1
  deriving DecidableEq, Repr

/-- `CFG` as R40 presents it. -/
def State.cfgView (s : State) : CfgView :=
  { bufCap := s.cfg.bufCap, qtyPolicy := qtyPolicyCode s.cfg.qtyPolicy, pidCheck := BitVec.ofBool s.cfg.pidCheck,
    lenCheck := BitVec.ofBool s.cfg.lenCheck, multiReq := BitVec.ofBool s.cfg.multiReq,
    storeMode := storeModeCode s.cfg.storeMode }

/-- The response bytes written so far, in order (R250). -/
def State.bytesWritten (s : State) : List Byte :=
  s.trace.filterMap fun e => match e with
    | .txByte b _ => some b
    | _ => none

/-- The log records emitted so far, in order (R250). -/
def State.logRecords (s : State) : List LogRecord :=
  s.trace.filterMap fun e => match e with
    | .log r => some r
    | _ => none

/-- The store reads issued so far, in order (R250). -/
def State.storeReads (s : State) : List (Word × Word) :=
  s.trace.filterMap fun e => match e with
    | .storeRead start count => some (start, count)
    | _ => none

end Sys2Proof.Machine
end

