-- ==== Sys2Proof/Machine/Respond.lean ====
section
/-! DEFINITION. The function of one chunk, `respond` (R244), written from that rule alone: the normative summary that the
sequencer's steps are held against (R245). -/

namespace Sys2Proof.Machine

/-- The outcome of a request (R14). -/
inductive ReqOutcome where
  | reply (bytes : List Byte)
  | drop (e : Err)
  | refuse
  deriving DecidableEq, Repr

/-- The response to a PDU: `BE16(TID) ++ BE16(PID) ++ BE16(1 + len(pdu)) ++ [UID] ++ pdu` (R244, last line). -/
def respondAdu (f : Fields) (pdu : List Byte) : List Byte :=
  be16 f.tid ++ be16 f.pid ++ be16 (BitVec.ofNat 16 (1 + pdu.length)) ++ [f.uid] ++ pdu

/-- `respond(CFG, store, c)`, its conditions in the order R244 writes them. A store that answers `Ok` with a wrong number
of words is refused (R70). -/
def respond (c : Cfg) (store : Word → Word → Option (List Word)) (chunk : List Byte) : ReqOutcome :=
  match unpackBytes chunk with
  | none => .drop .frameTooShort
  | some (f, _) =>
    if c.pidCheck = true ∧ f.pid ≠ 0 then .drop .unsupportedProtocol
    else if c.lenCheck = true ∧ f.len.toNat < 6 then .drop .frameTooShort
    else if c.lenCheck = true ∧ chunk.length < 6 + f.len.toNat then .drop .frameTruncated
    else if f.fc ≠ 0x03 then .reply (respondAdu f [f.fc ||| 0x80, 0x01])
    else if c.qtyPolicy = .strict ∧ (f.qty.toNat = 0 ∨ 125 < f.qty.toNat) then .reply (respondAdu f [0x83, 0x03])
    else if c.qtyPolicy = .reference ∧ 32766 < f.qty.toNat then .refuse
    else
      match c.storeMode with
      | .placeholder =>
        .reply (respondAdu f
          ([0x03, BitVec.ofNat 8 (2 * f.qty.toNat)] ++ (List.replicate f.qty.toNat [0x12, 0x34]).flatten))
      | .capability =>
        match store f.addr f.qty with
        | none => .reply (respondAdu f [0x83, 0x02])
        | some ws =>
          if ws.length = f.qty.toNat then
            .reply (respondAdu f ([0x03, BitVec.ofNat 8 (2 * f.qty.toNat)] ++ (ws.map be16).flatten))
          else .refuse

end Sys2Proof.Machine
end

