-- ==== Sys2Proof/Safety.lean ====
section
/-! DEFINITION. What holds of every state a run from reset passes through (`State.Inv`), and what a safe step is. -/

namespace Sys2Proof.Machine

/-- The receive buffer holds exactly the bytes `bs`, at offsets 0 and up, and `rx_cnt` counts them (R31, R45). -/
def State.HoldsChunk (s : State) (bs : List Byte) : Prop :=
  s.rx = Memory.ofBytes 0 bs ∧ s.rxCnt = bs.length

/-- No response is in the making: `exc`, `tx_len`, `tx_cnt`, `pdu` and `adu` are as at reset (R50). -/
def State.NoResponse (s : State) : Prop :=
  s.exc = 0x00 ∧ s.txLen = 0 ∧ s.txCnt = 0 ∧ s.pdu = [] ∧ s.adu = []

/-- No `StoreRead` is outstanding (R294). -/
def State.NoStoreRead (s : State) : Prop := s.srBusy = false ∧ s.srWords = []

/-- Every item of R50 but `st`, `err` and `CFG` has its reset value: what R51 leaves. -/
def State.Fresh (s : State) : Prop :=
  s.HoldsChunk [] ∧ s.fields = none ∧ s.disp = .none ∧ s.NoResponse ∧ s.NoStoreRead

/-- The field registers hold the unpack of the chunk in `RX`, which fits the buffer and passed the enabled checks
(R83, R141, R143, R144). -/
def State.HoldsRequest (s : State) (f : Fields) : Prop :=
  s.fields = some f ∧ s.rxCnt ≤ s.cfg.bufCap ∧ fieldError s.cfg s.rxCnt f = none ∧
    ∃ bs rest, s.HoldsChunk bs ∧ unpackBytes bs = some (f, rest)

/-- `pdu` and `exc` are a response to the request `f`: a success response with `QTY` registers, each the placeholder
without a store (R177, R175), or the exception response of one of the three codes, under the cause R272 to R274 give it. -/
def ResponsePdu (c : Cfg) (f : Fields) (pdu : List Byte) (exc : Byte) : Prop :=
  (exc = 0x00 ∧ f.fc = 0x03 ∧ quantityRejected c f.qty = false ∧ quantityRefused c f.qty = false ∧
      ∃ ws, ws.length = f.qty.toNat ∧ pdu = successPdu f.qty ws ∧
        (c.storeMode = .placeholder → ws = placeholderWords f.qty)) ∨
    (exc = 0x01 ∧ f.fc ≠ 0x03 ∧ pdu = [f.fc ||| 0x80, 0x01]) ∨
    (exc = 0x02 ∧ f.fc = 0x03 ∧ quantityOutOfRange f.qty = false ∧ c.storeMode = .capability ∧ pdu = [0x83, 0x02]) ∨
    (exc = 0x03 ∧ f.fc = 0x03 ∧ quantityRejected c f.qty = true ∧ pdu = [0x83, 0x03])

/-- The invariant, one clause for each value of `st`. In `CLOSED` the empty `RX` is R270's, and the empty `pdu` and `adu` after
a drop are log entry 2's (DEDUCED). -/
def State.Inv (s : State) : Prop :=
  match s.st with
  | .idle => s.err = .none ∧ s.Fresh
  | .recv =>
    s.err = .none ∧ 0 < s.rxCnt ∧ s.rxCnt < s.cfg.bufCap ∧ (∃ bs, s.HoldsChunk bs) ∧ s.fields = none ∧
      s.disp = .none ∧ s.NoResponse ∧ s.NoStoreRead
  | .decode =>
    s.err = .none ∧ 0 < s.rxCnt ∧ s.rxCnt ≤ s.cfg.bufCap ∧ (∃ bs, s.HoldsChunk bs) ∧ s.fields = none ∧
      s.disp = .none ∧ s.NoResponse ∧ s.NoStoreRead
  | .dispatch => s.err = .none ∧ (∃ f, s.HoldsRequest f) ∧ s.disp = .none ∧ s.NoResponse ∧ s.NoStoreRead
  | .exec =>
    s.err = .none ∧ s.NoResponse ∧ (s.srBusy = false → s.srWords = []) ∧
      ∃ f, s.HoldsRequest f ∧ s.disp = classify f.fc ∧
        (s.srBusy = true → f.fc = 0x03 ∧ s.cfg.storeMode = .capability ∧ quantityRejected s.cfg f.qty = false ∧
          s.cfg.qtyPolicy = .strict)
  | .encode =>
    s.err = .none ∧ s.txLen = 0 ∧ s.txCnt = 0 ∧ s.adu = [] ∧ s.NoStoreRead ∧
      ∃ f, s.HoldsRequest f ∧ s.disp = classify f.fc ∧ ResponsePdu s.cfg f s.pdu s.exc
  | .send =>
    s.err = .none ∧ s.txCnt < s.txLen ∧ s.txLen = s.adu.length ∧ s.NoStoreRead ∧
      ∃ f, s.HoldsRequest f ∧ s.disp = classify f.fc ∧ ResponsePdu s.cfg f s.pdu s.exc ∧ s.adu = respondAdu f s.pdu
  | .closed =>
    s.fields = none ∧ s.rx = [] ∧ s.pdu = [] ∧ s.adu = [] ∧ s.NoStoreRead ∧ (s.err = .none → s.Fresh)

/-- A step does not fault. -/
def StepSafe (s : State) : Prop := ∀ r, step s ≠ .fault r

/-- No reset is asserted in any of the coming steps the schedule fixes. -/
def State.NoReset (s : State) : Prop := ∀ x ∈ s.inputs, x.rst = false ∧ x.connOpen = false

/-- `k` steps, stopping at the first fault or refusal. -/
def runSteps : Nat → State → Host.Outcome State Fault Refusal
  | 0, s => .next s
  | k + 1, s =>
    match step s with
    | .next t => runSteps k t
    | .fault r => .fault r
    | .refused r => .refused r

/-- The bytes of one chunk as the transport offers them: the last one carries the chunk-end mark (R131, R132). -/
def chunkOf : List Byte → List (Byte × Bool)
  | [] => []
  | [b] => [(b, true)]
  | b :: bs => (b, false) :: chunkOf bs

/-- The words at the store port over some steps, in order, one for each `sr_word_valid` (R294). -/
def portWords (xs : List Stim) : List Word :=
  xs.filterMap fun x => if x.pins.srWordValid then some x.pins.srWord else none

/-- The answer a store gives through its port: it is complete at `last`, the first step with `sr_done`, after any steps of
waiting, some of which carry words (R294; the rhythm is log entry 5). -/
def portAnswer (waits : List Stim) (last : Stim) : Option (List Word) :=
  if last.pins.srOk then some (portWords (waits ++ [last])) else none

/-- `respond` asks the store: the last case of R244. -/
def AsksStore (c : Cfg) (chunk : List Byte) : Prop :=
  c.storeMode = .capability ∧ ∃ f rest, unpackBytes chunk = some (f, rest) ∧ fieldError c chunk.length f = none ∧
    f.fc = 0x03 ∧ 1 ≤ f.qty.toNat ∧ f.qty.toNat ≤ 125

/-- The successors of a sequencer state (R30, R241); a state that repeats or waits is its own successor. -/
def successors (st : St) : List St :=
  match st with
  | .idle => [.idle, .recv, .decode, .closed]
  | .recv => [.recv, .decode, .closed]
  | .decode => [.dispatch, .closed]
  | .dispatch => [.exec]
  | .exec => [.exec, .encode]
  | .encode => [.send]
  | .send => [.send, .idle, .closed]
  | .closed => [.closed]

/-- The state with other waiting bytes and other levels at the transport's pins (R132, R224); the rest as it is. -/
def State.withTransport (s : State) (q : List (Byte × Bool)) (eof rerr ready terr : Bool) : State :=
  { s with rxq := q, pins := { s.pins with rxEof := eof, rxErr := rerr, txReady := ready, txErr := terr } }

/-- The block's own state, without its surroundings and the trace: two states agree on it. -/
def SameBlock (s t : State) : Prop :=
  s.cfg = t.cfg ∧ s.st = t.st ∧ s.rxCnt = t.rxCnt ∧ s.txLen = t.txLen ∧ s.txCnt = t.txCnt ∧ s.disp = t.disp ∧
    s.exc = t.exc ∧ s.err = t.err ∧ s.fields = t.fields ∧ s.rx = t.rx ∧ s.pdu = t.pdu ∧ s.adu = t.adu ∧
    s.srBusy = t.srBusy ∧ s.srWords = t.srWords

end Sys2Proof.Machine
end

