-- ==== Sys2Proof/Certificates/Slice0/Obligations.lean ====
section
/-! DEFINITION. The statements for the provers. Each docstring names the rule of spec/ it formalises. A stage statement is
about `transition`, which `step` runs by `Obligations.StepIsResetOrTransition`. -/

open Sys2Proof Sys2Proof.Machine

/-! ### Encoding -/

/-- R115: the seven field values survive encoding and unpacking, by `UBE16(BE16(v)) = v`. -/
def Obligations.FieldValuesRoundTrip : Prop :=
  (∀ f : Fields, unpackBytes f.bytes = some (f, [])) ∧
    ∀ v : Word, ∃ b0 b1, be16 v = [b0, b1] ∧ ube16 b0 b1 = v ∧ v.toNat = b0.toNat * 256 + b1.toNat

/-- R90, R101, R108, R114: decoding the words of any well-formed request, with any trailing bytes, gives the request and
those bytes. -/
def Obligations.DecodeInvertsEncode : Prop :=
  ∀ (i : Instr) (tail : List Byte), i.WellFormed → decode (assemble i tail) = .ok (i, tail)

/-- R90, R101, R115: what the decoder accepts is well formed, and encodes to the bytes it was read from. -/
def Obligations.EncodeInvertsDecode : Prop :=
  ∀ (bs : List Byte) (i : Instr) (rest : List Byte), decode bs = .ok (i, rest) → i.WellFormed ∧ assemble i rest = bs

/-- R106, R136, R141: under 12 bytes nothing is decoded; any 12 bytes or more are a request. -/
def Obligations.ExactlyShortFramesRejected : Prop :=
  ∀ bs : List Byte,
    (bs.length < 12 → decode bs = .error (.frameTooShort bs.length)) ∧
      (12 ≤ bs.length → ∃ i, decode bs = .ok (i, bs.drop 12))

/-- R102: the first row of the match and mask table that a frame matches carries the decoder's mnemonic; and the 96-bit
string is the 12 bytes (R90). -/
def Obligations.DecoderFollowsOpcodeTable : Prop :=
  ∀ f : Fields, tableMnemonic f.bits = some f.toInstr.mnemonic ∧ bytesOfBits f.bits = f.bytes

/-- R100: `FC` alone selects the operation. 0x03 is Read Holding Registers; each of the others takes the illegal-function
path. -/
def Obligations.FunctionCodeAloneSelects : Prop :=
  ∀ f : Fields,
    (f.fc = 0x03 → f.toInstr = .rhr f.toRequest) ∧
      (f.fc ≠ 0x03 → ∀ s : State,
        exec f.toInstr s = .next { s with pdu := [f.fc ||| 0x80, 0x01], exc := 0x01, st := .encode }) ∧
      ∀ g : Fields, g.fc = f.fc → g.toInstr.mnemonic = f.toInstr.mnemonic

/-- Words written out from R90 and R101, one a family: the source's scenario A (R113), `WMR` (R148), an unnamed code. -/
def Obligations.WrittenOutWordsDecode : Prop :=
  decode [0x00, 0x01, 0x00, 0x00, 0x00, 0x06, 0x01, 0x03, 0x00, 0x00, 0x00, 0x03] = .ok (.rhr { qty := 3 }, []) ∧
    decode [0x12, 0x34, 0xAB, 0xCD, 0x00, 0x06, 0xFF, 0x10, 0x00, 0x01, 0x00, 0x02] =
      .ok (.wmr { tid := 0x1234, pid := 0xABCD, uid := 0xFF, addr := 1, qty := 2 }, []) ∧
    decode [0x00, 0x01, 0x00, 0x00, 0x00, 0x06, 0x01, 0x2B, 0x00, 0x00, 0x00, 0x03, 0xDE] =
      .ok (.unk 0x2B { qty := 3 }, [0xDE])

/-- R297: the name table of the log port, complete; every code it does not list is 0, "Unknown". -/
def Obligations.LogNamesAreTheTable : Prop :=
  ((nameIndex 0x01 = 1 ∧ functionName 0x01 = "Read Coils") ∧
    (nameIndex 0x02 = 2 ∧ functionName 0x02 = "Read Discrete Inputs") ∧
    (nameIndex 0x03 = 3 ∧ functionName 0x03 = "Read Holding Registers") ∧
    (nameIndex 0x04 = 4 ∧ functionName 0x04 = "Read Input Registers") ∧
    (nameIndex 0x05 = 5 ∧ functionName 0x05 = "Write Single Coil") ∧
    (nameIndex 0x06 = 6 ∧ functionName 0x06 = "Write Single Register") ∧
    (nameIndex 0x07 = 7 ∧ functionName 0x07 = "Read Exception Status") ∧
    (nameIndex 0x08 = 8 ∧ functionName 0x08 = "Diagnostics") ∧
    (nameIndex 0x0B = 9 ∧ functionName 0x0B = "Get Comm Event Counter") ∧
    (nameIndex 0x0C = 10 ∧ functionName 0x0C = "Get Comm Event Log") ∧
    (nameIndex 0x0F = 11 ∧ functionName 0x0F = "Write Multiple Coils") ∧
    (nameIndex 0x10 = 12 ∧ functionName 0x10 = "Write Multiple Registers") ∧
    (nameIndex 0x11 = 13 ∧ functionName 0x11 = "Report Server ID") ∧
    (nameIndex 0x14 = 14 ∧ functionName 0x14 = "Read File Record") ∧
    (nameIndex 0x15 = 15 ∧ functionName 0x15 = "Write File Record") ∧
    (nameIndex 0x16 = 16 ∧ functionName 0x16 = "Mask Write Register") ∧
    (nameIndex 0x17 = 17 ∧ functionName 0x17 = "Read/Write Multiple Registers") ∧
    (nameIndex 0x18 = 18 ∧ functionName 0x18 = "Read FIFO Queue")) ∧
    ∀ fc : Byte, fc ∉ namedCodes → nameIndex fc = 0 ∧ functionName fc = "Unknown"

/-! ### The illegal-function path -/

/-- R191 to R199: the named codes 0x01 to 0x0C without handler reply `[FC | 0x80, 0x01]`
with `exc` 0x01 and go to `ENCODE`, whatever the operands and the state; nothing else changes. -/
def Obligations.IllegalFunctionLowCodes : Prop :=
  ∀ (r : Request) (s : State),
    exec (.rc r) s = .next { s with pdu := [0x81, 0x01], exc := 0x01, st := .encode } ∧
    exec (.rdi r) s = .next { s with pdu := [0x82, 0x01], exc := 0x01, st := .encode } ∧
    exec (.rir r) s = .next { s with pdu := [0x84, 0x01], exc := 0x01, st := .encode } ∧
    exec (.wsc r) s = .next { s with pdu := [0x85, 0x01], exc := 0x01, st := .encode } ∧
    exec (.wsr r) s = .next { s with pdu := [0x86, 0x01], exc := 0x01, st := .encode } ∧
    exec (.res r) s = .next { s with pdu := [0x87, 0x01], exc := 0x01, st := .encode } ∧
    exec (.diag r) s = .next { s with pdu := [0x88, 0x01], exc := 0x01, st := .encode } ∧
    exec (.gcec r) s = .next { s with pdu := [0x8B, 0x01], exc := 0x01, st := .encode } ∧
    exec (.gcel r) s = .next { s with pdu := [0x8C, 0x01], exc := 0x01, st := .encode }

/-- R200 to R207: the named codes 0x0F to 0x18 reply likewise; nothing else changes. -/
def Obligations.IllegalFunctionHighCodes : Prop :=
  ∀ (r : Request) (s : State),
    exec (.wmc r) s = .next { s with pdu := [0x8F, 0x01], exc := 0x01, st := .encode } ∧
    exec (.wmr r) s = .next { s with pdu := [0x90, 0x01], exc := 0x01, st := .encode } ∧
    exec (.rsid r) s = .next { s with pdu := [0x91, 0x01], exc := 0x01, st := .encode } ∧
    exec (.rfr r) s = .next { s with pdu := [0x94, 0x01], exc := 0x01, st := .encode } ∧
    exec (.wfr r) s = .next { s with pdu := [0x95, 0x01], exc := 0x01, st := .encode } ∧
    exec (.mwr r) s = .next { s with pdu := [0x96, 0x01], exc := 0x01, st := .encode } ∧
    exec (.rwmr r) s = .next { s with pdu := [0x97, 0x01], exc := 0x01, st := .encode } ∧
    exec (.rfq r) s = .next { s with pdu := [0x98, 0x01], exc := 0x01, st := .encode }

/-- R208, R209, R210: `UNK` is every code the map does not name, these 238 values, all "Unknown" to the log; it replies
`[FC | 0x80, 0x01]`, which for a code with bit 7 set is the code itself, and 0x80 for 0x00. -/
def Obligations.IllegalFunctionUnnamedCodes : Prop :=
  (∀ f : Fields, (∃ fc r, f.toInstr = .unk fc r) ↔
    f.fc ∈ [0x00, 0x09, 0x0A, 0x0D, 0x0E, 0x12, 0x13] ∨ 0x19 ≤ f.fc.toNat) ∧
    (∀ (fc : Byte) (r : Request) (s : State),
      exec (.unk fc r) s = .next { s with pdu := [fc ||| 0x80, 0x01], exc := 0x01, st := .encode }) ∧
    (∀ f : Fields, (∃ fc r, f.toInstr = .unk fc r) → functionName f.fc = "Unknown") ∧
    (∀ fc : Byte, 0x80 ≤ fc.toNat → fc ||| 0x80 = fc) ∧ (0x00 : Byte) ||| 0x80 = 0x80

/-- R211: for a code other than 0x03, two frames with the same `TID`, `PID`, `UID` and `FC` that both get through the
enabled checks get the same 9 bytes, whatever `LEN`, `ADDR`, `QTY` and the trailing bytes. -/
def Obligations.IllegalReplyIgnoresOperands : Prop :=
  ∀ (c : Cfg) (store : Word → Word → Option (List Word)) (b1 b2 : List Byte) (f1 f2 : Fields) (r1 r2 : List Byte),
    unpackBytes b1 = some (f1, r1) → unpackBytes b2 = some (f2, r2) → f1.tid = f2.tid → f1.pid = f2.pid →
    f1.uid = f2.uid → f1.fc = f2.fc → f1.fc ≠ 0x03 → fieldError c b1.length f1 = none →
    fieldError c b2.length f2 = none →
    ∃ a, a.length = 9 ∧ respond c store b1 = .reply a ∧ respond c store b2 = .reply a

/-! ### Read Holding Registers -/

/-- R172: under `STRICT` a quantity of 0 or above 125 is answered with exception 0x03; no `StoreRead` is issued, nothing
else changes. -/
def Obligations.RhrQuantityOutOfRange : Prop :=
  ∀ (r : Request) (s : State), s.cfg.qtyPolicy = .strict → (r.qty.toNat = 0 ∨ 125 < r.qty.toNat) →
    exec (.rhr r) s = .next { s with pdu := [0x83, 0x03], exc := 0x03, st := .encode }

/-- R175, R177, R173: with the placeholder generator a request within the policy's domain is answered with byte count
`trunc_8(2 * QTY)` and `12 34` repeated `QTY` times, `exc` 0x00, whatever `ADDR`; nothing else changes. -/
def Obligations.RhrPlaceholderReply : Prop :=
  ∀ (r : Request) (s : State), s.cfg.storeMode = .placeholder →
    (s.cfg.qtyPolicy = .strict ∧ 1 ≤ r.qty.toNat ∧ r.qty.toNat ≤ 125 ∨
      s.cfg.qtyPolicy = .reference ∧ r.qty.toNat ≤ 32766) →
    exec (.rhr r) s = .next { s with
      pdu := [0x03, BitVec.ofNat 8 (2 * r.qty.toNat)] ++ (List.replicate r.qty.toNat [0x12, 0x34]).flatten,
      exc := 0x00, st := .encode }

/-- R174: under `REFERENCE` a quantity of 32767 or more is refused; at 32766 or less the length field fits 16 bits; under
`STRICT` the refusal does not arise. -/
def Obligations.RhrReferenceDomain : Prop :=
  ∀ (r : Request) (s : State),
    (s.cfg.qtyPolicy = .reference → 32767 ≤ r.qty.toNat →
      exec (.rhr r) s = .refused .quantityBeyondLengthField) ∧
    (s.cfg.qtyPolicy = .reference → s.cfg.storeMode = .placeholder → r.qty.toNat ≤ 32766 →
      ∃ t, exec (.rhr r) s = .next t ∧ t.pdu.length = 2 + 2 * r.qty.toNat ∧ 1 + t.pdu.length ≤ 65535) ∧
    (s.cfg.qtyPolicy = .strict → exec (.rhr r) s ≠ .refused .quantityBeyondLengthField)

/-- R173: the byte count is the product modulo 256, exact for a quantity up to 127, 0 at 128. -/
def Obligations.ByteCountTruncates : Prop :=
  ∀ q : Word, (byteCount q).toNat = 2 * q.toNat % 256 ∧ (q.toNat ≤ 127 → (byteCount q).toNat = 2 * q.toNat) ∧
    (q = 128 → byteCount q = 0)

/-- R176, R70: with a store, a valid quantity and a complete `Ok` answer of `QTY` words, the words are the reply's data;
nothing else changes. The model's choices: that the answer may come in the step that issues the read, and that a word at
the port together with `sr_done` counts (log entry 5); that request and answer are two events (log entry 11). -/
def Obligations.RhrStoreAnswersOk : Prop :=
  ∀ (r : Request) (s : State), s.cfg.qtyPolicy = .strict → s.cfg.storeMode = .capability → 1 ≤ r.qty.toNat →
    r.qty.toNat ≤ 125 → s.pins.srDone = true → s.pins.srOk = true → s.collectedWords.length = r.qty.toNat →
    exec (.rhr r) s = .next { s with
      pdu := [0x03, BitVec.ofNat 8 (2 * r.qty.toNat)] ++ (s.collectedWords.map be16).flatten, exc := 0x00,
      st := .encode, srBusy := false, srWords := [],
      trace := s.trace ++ (if s.srBusy then [] else [.storeRead r.addr r.qty]) ++
        [.storeAnswer (some s.collectedWords)] }

/-- R176, R274: a store's `Err` gives exception 0x02. The model's choices: that the answer may come in the step that issues
the read (log entry 5); that request and answer are two events (log entry 11). -/
def Obligations.RhrStoreAnswersErr : Prop :=
  ∀ (r : Request) (s : State), s.cfg.qtyPolicy = .strict → s.cfg.storeMode = .capability → 1 ≤ r.qty.toNat →
    r.qty.toNat ≤ 125 → s.pins.srDone = true → s.pins.srOk = false →
    exec (.rhr r) s = .next { s with
      pdu := [0x83, 0x02], exc := 0x02, st := .encode, srBusy := false, srWords := [],
      trace := s.trace ++ (if s.srBusy then [] else [.storeRead r.addr r.qty]) ++ [.storeAnswer none] }

/-- R243: while the answer is not complete the request stays in `EXEC`; the read is issued once; a store that answers `Ok`
with a wrong number of words is refused (R70). The model's choice: at most one word is collected in every `EXEC` step, the
issuing step included (log entry 5). -/
def Obligations.RhrStoreWaitsOrBreaksContract : Prop :=
  ∀ (r : Request) (s : State), s.cfg.qtyPolicy = .strict → s.cfg.storeMode = .capability → 1 ≤ r.qty.toNat →
    r.qty.toNat ≤ 125 →
    (s.pins.srDone = false →
      exec (.rhr r) s = .next { s with
        srBusy := true, srWords := s.srWords ++ (if s.pins.srWordValid then [s.pins.srWord] else []),
        trace := s.trace ++ (if s.srBusy then [] else [.storeRead r.addr r.qty]) }) ∧
    (s.pins.srDone = true → s.pins.srOk = true → s.collectedWords.length ≠ r.qty.toNat →
      exec (.rhr r) s = .refused .storeContractBroken)

/-- R70, R72: a handler step issues a `StoreRead` only for function 0x03, with `STORE_MODE=CAPABILITY`, after the quantity
check passed, with `start = ADDR` and `count = QTY`, and not while one is outstanding. -/
def Obligations.StoreReadIssuedOnce : Prop :=
  ∀ (i : Instr) (s t : State), exec i s = .next t →
    t.storeReads = s.storeReads ∨
      (s.srBusy = false ∧ ∃ r, i = .rhr r ∧ s.cfg.storeMode = .capability ∧ s.cfg.qtyPolicy = .strict ∧
        1 ≤ r.qty.toNat ∧ r.qty.toNat ≤ 125 ∧ t.storeReads = s.storeReads ++ [(r.addr, r.qty)] ∧
        (t.st = .encode ∨ t.srBusy = true))

/-- The frame of every handler (R38, R164, R190, R284): only `pdu`, `exc`, `st`, the store read's two fields and the trace
may change; every byte of `RX` and of `TX`, every field register, flag and counter is as before. -/
def Obligations.HandlerFrame : Prop :=
  ∀ (i : Instr) (s t : State), exec i s = .next t →
    (∀ a, t.rx.read a = s.rx.read a) ∧ t.rx = s.rx ∧ t.adu = s.adu ∧ t.fields = s.fields ∧ t.cfg = s.cfg ∧
      t.rxCnt = s.rxCnt ∧ t.txLen = s.txLen ∧ t.txCnt = s.txCnt ∧ t.disp = s.disp ∧ t.err = s.err ∧
      t.pins = s.pins ∧ t.rxq = s.rxq ∧ t.inputs = s.inputs ∧
      (s.st = .exec → t.st = .encode ∨ t.st = .exec) ∧
      ((∀ r, i ≠ .rhr r) → t.srBusy = s.srBusy ∧ t.srWords = s.srWords ∧ t.trace = s.trace)

/-! ### Step, reset, connection -/

/-- R241, R310, R9: one step is the reset if one is asserted, whatever the state; the transition under legal straps; else
a refusal. -/
def Obligations.StepIsResetOrTransition : Prop :=
  ∀ s : State,
    (s.resetRequested = true → step s = .next s.sample.resetBlock) ∧
      (s.resetRequested = false → 12 ≤ s.cfg.bufCap →
        ¬(s.cfg.qtyPolicy = .reference ∧ s.cfg.storeMode = .capability) → step s = transition s.sample) ∧
      (s.resetRequested = false →
        (s.cfg.bufCap < 12 ∨ s.cfg.qtyPolicy = .reference ∧ s.cfg.storeMode = .capability) →
        step s = .refused .illegalStraps)

/-- R164, R83: where the bytes of the chunk in `RX` decode to a request and the block is in `EXEC`, a step is `exec` of
that request at the state with this step's inputs. -/
def Obligations.StepRunsDecodedRequest : Prop :=
  ∀ (s : State) (bs : List Byte) (i : Instr) (rest : List Byte), s.Inv → s.st = .exec → s.resetRequested = false →
    cfgLegal s.cfg = true → s.rx.firstBytes s.rxCnt = some bs → decode bs = .ok (i, rest) →
    step s = exec i s.sample

/-- R50, R310: a reset, by either cause and from any state, gives every item the value of R50 and samples the straps. -/
def Obligations.ResetGivesResetValues : Prop :=
  ∀ (s : State) (x : Stim) (xs : List Stim), s.inputs = x :: xs → (x.rst = true ∨ x.connOpen = true) →
    ∃ t, step s = .next t ∧ t.st = .idle ∧ t.rxCnt = 0 ∧ t.txCnt = 0 ∧ t.txLen = 0 ∧ t.disp = .none ∧
      t.exc = 0x00 ∧ t.err = .none ∧ t.fields = none ∧ (∀ a, t.rx.read a = none) ∧ t.pdu = [] ∧ t.adu = [] ∧
      t.cfg = x.pins.straps ∧ t.bytesWritten = s.bytesWritten

/-- R50: the values at reset. The straps are the default profile, the model's choice (log entry 7). -/
def Obligations.ResetStateValues : Prop :=
  State.reset.st = .idle ∧ State.reset.rxCnt = 0 ∧ State.reset.txCnt = 0 ∧ State.reset.txLen = 0 ∧
    State.reset.disp = .none ∧ State.reset.exc = 0x00 ∧ State.reset.err = .none ∧ State.reset.fields = none ∧
    (∀ a, State.reset.rx.read a = none) ∧ State.reset.pdu = [] ∧ State.reset.adu = [] ∧
    State.reset.cfg = Cfg.defaultProfile

/-- R135: a read failure in `IDLE` or `RECV` ends the connection: `err <- RX_FAIL`, the bytes so far are discarded, nothing
is written; it wins over an offered byte, which stays in the transport, and over the end of the stream. -/
def Obligations.ReadFailureEndsConnection : Prop :=
  ∀ s : State, (s.st = .idle ∨ s.st = .recv) → s.pins.rxErr = true →
    ∃ t, transition s = .next t ∧ t.err = .rxFail ∧ t.st = .closed ∧ t.fields = none ∧ (∀ a, t.rx.read a = none) ∧
      t.rxq = s.rxq ∧ t.bytesWritten = s.bytesWritten ∧ t.logRecords = s.logRecords ∧ t.rxCnt = s.rxCnt

/-- R134: the end of the stream in `IDLE` with no byte accepted closes the connection; `err` stays, nothing is written. -/
def Obligations.EndOfStreamBetweenRequests : Prop :=
  ∀ s : State, s.st = .idle → s.pins.rxErr = false → s.rxq = [] → s.pins.rxEof = true →
    transition s = .next { s with st := .closed, trace := s.trace ++ [.rxEof] }

/-- R133, R132: the bytes of a chunk. An accepted byte is stored at `RX[rx_cnt]`, no other byte of `RX` changes, and the
chunk ends at a byte marked last or one that makes `rx_cnt = BUF_CAP`; in `RECV` also at the end of the stream with no byte
accepted; with nothing offered the block waits. -/
def Obligations.ChunkBytesAndChunkEnd : Prop :=
  ∀ s : State, (s.st = .idle ∨ s.st = .recv) → s.pins.rxErr = false →
    (∀ (b : Byte) (last : Bool) (q : List (Byte × Bool)), s.rxq = (b, last) :: q → s.rxCnt < s.cfg.bufCap →
      ∃ t, transition s = .next t ∧ t.rx.read s.rxCnt = some b ∧
        (∀ a, a ≠ s.rxCnt → t.rx.read a = s.rx.read a) ∧ t.rxCnt = s.rxCnt + 1 ∧ t.rxq = q ∧
        t.st = (if last = true ∨ s.rxCnt + 1 = s.cfg.bufCap then .decode else .recv) ∧
        t.fields = s.fields ∧ t.err = s.err ∧ t.bytesWritten = s.bytesWritten) ∧
    (s.rxq = [] → s.st = .recv → s.pins.rxEof = true →
      transition s = .next { s with st := .decode, trace := s.trace ++ [.rxEof] }) ∧
    (s.rxq = [] → s.pins.rxEof = false → transition s = .next s)

/-- R136: under 12 bytes, `FrameTooShort`: `err` written, `CLOSED`, no field register written, nothing logged or written;
the check looks at the count alone. No copy of the frame stays in `RX` (R270); that `pdu` and `adu` are empty is the
model's deduction (log entry 2). -/
def Obligations.ShortFrameDropped : Prop :=
  ∀ s : State, s.st = .decode → s.rxCnt < 12 →
    transition s = .next { s with err := .frameTooShort, st := .closed, fields := none, rx := [], pdu := [], adu := [] }

/-- R141: 12 bytes or more are unpacked big-endian from the fixed offsets; R146: they are logged once; R143, R144, R283:
the enabled checks follow in the order protocol id, declared length under 6, bytes received (an order R283 calls the spec's
own), each a drop that keeps no copy of the frame (R270); R147: else `DISPATCH`. That a drop empties `pdu` and `adu` is the
model's deduction (log entry 2). -/
def Obligations.DecodeUnpacksLogsChecks : Prop :=
  ∀ (s : State) (b0 b1 b2 b3 b4 b5 b6 b7 b8 b9 b10 b11 : Byte) (rest : List Byte), s.st = .decode →
    s.HoldsChunk (b0 :: b1 :: b2 :: b3 :: b4 :: b5 :: b6 :: b7 :: b8 :: b9 :: b10 :: b11 :: rest) →
    ∃ f : Fields,
      f.tid.toNat = b0.toNat * 256 + b1.toNat ∧ f.pid.toNat = b2.toNat * 256 + b3.toNat ∧
      f.len.toNat = b4.toNat * 256 + b5.toNat ∧ f.uid = b6 ∧ f.fc = b7 ∧
      f.addr.toNat = b8.toNat * 256 + b9.toNat ∧ f.qty.toNat = b10.toNat * 256 + b11.toNat ∧
      transition s =
        (let log := [Event.log { tid := f.tid, pid := f.pid, len := f.len, uid := f.uid, fc := f.fc,
                                 name := nameIndex f.fc, addr := f.addr, qty := f.qty }]
         let dropped := fun e : Err =>
           { s with err := e, st := .closed, fields := none, rx := [], pdu := [], adu := [], trace := s.trace ++ log }
         if s.cfg.pidCheck = true ∧ f.pid ≠ 0 then .next (dropped .unsupportedProtocol)
         else if s.cfg.lenCheck = true ∧ f.len.toNat < 6 then .next (dropped .frameTooShort)
         else if s.cfg.lenCheck = true ∧ 12 + rest.length < 6 + f.len.toNat then .next (dropped .frameTruncated)
         else .next { s with fields := some f, st := .dispatch, trace := s.trace ++ log })

/-- R161, R163: the classification by `FC` alone, total, in one step; nothing else changes. -/
def Obligations.DispatchClassifies : Prop :=
  ∀ (s : State) (f : Fields), s.st = .dispatch → s.fields = some f →
    transition s = .next { s with disp := (if f.fc = 0x03 then .recognized else .unrecognized), st := .exec }

/-- R221, R222, R223: the build of the response, its length computed, its ids echoed; nothing else changes. -/
def Obligations.EncodeBuildsAdu : Prop :=
  ∀ (s : State) (f : Fields), s.st = .encode → s.fields = some f → 1 + s.pdu.length ≤ 65535 →
    transition s = .next { s with
      adu := be16 f.tid ++ be16 f.pid ++ be16 (BitVec.ofNat 16 (1 + s.pdu.length)) ++ [f.uid] ++ s.pdu,
      txLen := 7 + s.pdu.length, txCnt := 0, st := .send }

/-- R226: a write failure in `SEND` ends the connection before any byte of that step; what was written stays written. No
copy of the frame stays in `RX` (R270); that `pdu` and `adu` are empty is the model's deduction (log entry 2). -/
def Obligations.WriteFailureEndsConnection : Prop :=
  ∀ s : State, s.st = .send → s.pins.txErr = true →
    transition s = .next { s with
      err := .txFail, st := .closed, fields := none, rx := [], pdu := [], adu := [], trace := s.trace ++ [.txErr] }

/-- R224, R225: in `SEND` a byte stays offered until the peer takes it; a byte that is not the last advances `tx_cnt`. -/
def Obligations.SendOffersEachByte : Prop :=
  ∀ s : State, s.st = .send → s.pins.txErr = false →
    (s.pins.txReady = false → transition s = .next s) ∧
      ∀ b, s.pins.txReady = true → s.txCnt + 1 < s.txLen → s.adu[s.txCnt]? = some b →
        transition s = .next { s with txCnt := s.txCnt + 1, trace := s.trace ++ [.txByte b false] }

/-- R51: on the last byte of a response every item of R50 but `st`, `err` and `CFG` takes its reset value, and the block is
in `IDLE` or `CLOSED` by `MULTI_REQ`; on a drop the field registers hold no value and the counters, `disp` and `exc` keep
theirs. -/
def Obligations.RequestEndReinitialises : Prop :=
  (∀ (s : State) (b : Byte), s.st = .send → s.pins.txErr = false → s.pins.txReady = true → s.txCnt + 1 = s.txLen →
    s.adu[s.txCnt]? = some b →
    transition s = .next { s with
      rxCnt := 0, txCnt := 0, txLen := 0, disp := .none, exc := 0x00, fields := none, rx := [], pdu := [], adu := [],
      srBusy := false, srWords := [], st := (if s.cfg.multiReq then .idle else .closed),
      trace := s.trace ++ [.txByte b true] }) ∧
    ∀ s t : State, transition s = .next t → t.err ≠ s.err →
      t.st = .closed ∧ t.fields = none ∧ t.rxCnt = s.rxCnt ∧ t.txCnt = s.txCnt ∧ t.txLen = s.txLen ∧
        t.disp = s.disp ∧ t.exc = s.exc

/-- R248: in `CLOSED` the block takes no byte and writes none; anything but a reset leaves it as it is. -/
def Obligations.ClosedOnlyResetLeaves : Prop :=
  ∀ s : State, s.st = .closed →
    s.rxReady = false ∧ s.txValid = false ∧
      (s.resetRequested = false → cfgLegal s.cfg = true →
        ∃ t, step s = .next t ∧ SameBlock s t ∧ t.trace = s.trace ∧ t.rxq = s.sample.rxq)

/-! ### The whole machine -/

/-- R30, R33, R241: without a reset the sequencer only moves to a successor of its state. -/
def Obligations.SequencerFollowsEdges : Prop :=
  ∀ s t : State, step s = .next t → s.resetRequested = false → t.st ∈ successors s.st

/-- R40, R37: no step but a reset changes `CFG`, or clears an `err` that is set. -/
def Obligations.OnlyResetChangesCfgOrClearsErr : Prop :=
  ∀ s t : State, step s = .next t → s.resetRequested = false → t.cfg = s.cfg ∧ (s.err ≠ .none → t.err ≠ .none)

/-- R21: the only writer of the field registers is the unpack in `DECODE`, all seven at once; else they keep their values
or cease to hold one. -/
def Obligations.OnlyUnpackWritesFields : Prop :=
  ∀ s t : State, step s = .next t →
    t.fields = s.fields ∨ t.fields = none ∨ (s.st = .decode ∧ 12 ≤ s.rxCnt ∧ t.fields = s.unpack)

/-- R249, R132, R316: bytes are taken only in `IDLE` and `RECV`; in every other state the bytes in the transport wait, and
`RX` does not gain a byte. -/
def Obligations.NoByteTakenWhileRequestInHand : Prop :=
  ∀ s t : State, step s = .next t → s.resetRequested = false →
    (s.rxReady = true ↔ s.st = .idle ∨ s.st = .recv) ∧
      (s.rxReady = false → t.rxq = s.sample.rxq ∧ ∀ a, t.rx.read a = s.rx.read a ∨ t.rx.read a = none)

/-- R224, R250: without a reset, a step writes exactly the byte offered in `SEND` when the peer is ready and no write
failure is there; no step in another state writes a byte. -/
def Obligations.BytesWrittenOnlyInSend : Prop :=
  ∀ s t : State, step s = .next t → s.resetRequested = false →
    t.bytesWritten = s.bytesWritten ++
      (if s.st = .send ∧ s.sample.pins.txErr = false ∧ s.sample.pins.txReady = true then s.txData.toList else [])

/-- R146, R296, R251: a step emits exactly the record at the log port: one for each unpacked request, in `DECODE`, none for
a chunk under 12 bytes. That a step with a reset emits none is the model's choice (log entry 20). -/
def Obligations.LogRecordPerUnpackedRequest : Prop :=
  ∀ s t : State, step s = .next t →
    t.logRecords = s.logRecords ++ s.logPort.toList ∧
      s.logPort = (if s.resetRequested = false ∧ s.st = .decode ∧ 12 ≤ s.rxCnt then s.unpack.map logRecord else none)

/-- R243, R282: what the transport does is not looked at in `DECODE`, `DISPATCH`, `EXEC` and `ENCODE`: with other waiting
bytes and other transport levels the block does the same, and leaves those bytes and levels as they are. -/
def Obligations.TransportNotLookedAtInside : Prop :=
  ∀ (s : State) (q : List (Byte × Bool)) (eof rerr ready terr : Bool),
    (s.st = .decode ∨ s.st = .dispatch ∨ s.st = .exec ∨ s.st = .encode) →
    (∀ t, transition s = .next t →
      transition (s.withTransport q eof rerr ready terr) = .next (t.withTransport q eof rerr ready terr)) ∧
    (∀ e, transition s = .refused e → transition (s.withTransport q eof rerr ready terr) = .refused e)

/-- The invariant holds at reset, and reset memory is canonical (R50). -/
def Obligations.ResetSatisfiesInvariant : Prop := State.reset.Inv ∧ State.reset.rx.wf

/-- Every step keeps the invariant, from every state that has it (R22, R31, R32, R35 to R37, R45, R46, R51, R241). In `CLOSED` it
claims that `RX` is empty, which is R270 after a drop, and that `pdu` and `adu` are empty, which after a drop is the model's
reading of R270 (log entry 2, DEDUCED). -/
def Obligations.StepKeepsInvariant : Prop := ∀ s t : State, s.Inv → step s = .next t → t.Inv

/-- Every step keeps the receive buffer in canonical form, from every state. -/
def Obligations.StepKeepsMemoryCanonical : Prop := ∀ s t : State, s.rx.wf → step s = .next t → t.rx.wf

/-- Under the invariant and legal straps no step faults, and the only refusals are the two of Read Holding Registers in
`EXEC` (R62, R164, R228, R174, R70). -/
def Obligations.InvariantExcludesFaults : Prop :=
  ∀ s : State, s.Inv → StepSafe s ∧
    ∀ e, step s = .refused e → cfgLegal s.cfg = true →
      s.st = .exec ∧ (∃ f, s.fields = some f ∧ f.fc = 0x03) ∧
        (e = .quantityBeyondLengthField ∧ s.cfg.qtyPolicy = .reference ∨
          e = .storeContractBroken ∧ s.cfg.storeMode = .capability)

/-- R180: in `SEND`, the response to a Read Holding Registers request for a quantity `q` from 1 to 125 is a success
response, with a store whenever the store did not answer `Err` (R274): it echoes the ids, has byte count `2q`, `2q` data
bytes and length field `3 + 2q`. Every response with `exc` 0x00 to such a quantity has that shape. -/
def Obligations.SuccessResponseShape : Prop :=
  ∀ (s : State) (f : Fields), s.Inv → s.st = .send → s.fields = some f → 1 ≤ f.qty.toNat → f.qty.toNat ≤ 125 →
    (s.exc = 0x00 ∨ f.fc = 0x03 ∧ (s.cfg.storeMode = .placeholder ∨ s.exc ≠ 0x02)) →
    s.exc = 0x00 ∧ f.fc = 0x03 ∧ ∃ data, data.length = 2 * f.qty.toNat ∧
      s.adu = be16 f.tid ++ be16 f.pid ++ be16 (BitVec.ofNat 16 (3 + 2 * f.qty.toNat)) ++ [f.uid] ++
        [0x03, BitVec.ofNat 8 (2 * f.qty.toNat)] ++ data

/-- R166, R212: in `SEND`, the response to any function code other than 0x03 carries `FC | 0x80` and exception code 0x01,
with length 3. -/
def Obligations.UnrecognisedResponseShape : Prop :=
  ∀ (s : State) (f : Fields), s.Inv → s.st = .send → s.fields = some f → f.fc ≠ 0x03 →
    s.adu = be16 f.tid ++ be16 f.pid ++ [0x00, 0x03] ++ [f.uid] ++ [f.fc ||| 0x80, 0x01]

/-- R227: in `SEND`, under `STRICT` every response has between 9 and 259 bytes. R271 to R274: under every policy `exc` is one
of 0x00 to 0x03; it is 0x01 exactly for a code other than 0x03, 0x03 exactly for a Read Holding Registers request with quantity
0 or above 125 under `STRICT`, and 0x02 only for one with a quantity from 1 to 125 and a store. -/
def Obligations.StrictResponseSizes : Prop :=
  ∀ s : State, s.Inv → s.st = .send →
    (s.cfg.qtyPolicy = .strict → 9 ≤ s.txLen ∧ s.txLen ≤ 259) ∧
      (s.exc = 0x00 ∨ s.exc = 0x01 ∨ s.exc = 0x02 ∨ s.exc = 0x03) ∧
      ∃ f, s.fields = some f ∧ (s.exc = 0x01 ↔ f.fc ≠ 0x03) ∧
        (s.exc = 0x03 ↔ f.fc = 0x03 ∧ s.cfg.qtyPolicy = .strict ∧ (f.qty.toNat = 0 ∨ 125 < f.qty.toNat)) ∧
        (s.exc = 0x02 → f.fc = 0x03 ∧ s.cfg.storeMode = .capability ∧ 1 ≤ f.qty.toNat ∧ f.qty.toNat ≤ 125)

/-- R245, R244: the four steps `DECODE` to `ENCODE` compute `respond` of every chunk for which it does not ask a store,
whatever the straps and whatever the transport does meanwhile: a reply stands in `SEND` unsent, a drop ends in `CLOSED` with
its `err` and no byte written, a refusal is refused; no store read is issued. -/
def Obligations.FourStepsComputeRespond : Prop :=
  ∀ (s : State) (bs : List Byte) (store : Word → Word → Option (List Word)), s.Inv → cfgLegal s.cfg = true →
    s.NoReset → s.st = .decode → s.HoldsChunk bs → ¬AsksStore s.cfg bs →
    match respond s.cfg store bs with
    | .reply a =>
      ∃ t, runSteps 4 s = .next t ∧ t.st = .send ∧ t.adu = a ∧ t.txLen = a.length ∧ t.txCnt = 0 ∧ t.err = .none ∧
        t.bytesWritten = s.bytesWritten ∧ t.storeReads = s.storeReads
    | .drop e =>
      ∃ t, runSteps 4 s = .next t ∧ t.st = .closed ∧ t.err = e ∧ t.fields = none ∧ t.bytesWritten = s.bytesWritten ∧
        t.storeReads = s.storeReads
    | .refuse => runSteps 4 s = .refused .quantityBeyondLengthField

/-- R245, R244, R176: for a chunk for which `respond` asks the store, the steps `DECODE` to `ENCODE` compute `respond` of
the chunk and of the store's answer, and issue the one `StoreRead(ADDR, QTY)`, whatever the rhythm of the answer: after any
number of waiting steps, its words in any of them. A wrong number of words is refused (R70). How the port's levels make up
an answer, the issuing step included, is the model's choice (log entry 5). -/
def Obligations.StoreReadComputesRespond : Prop :=
  ∀ (s : State) (bs : List Byte) (store : Word → Word → Option (List Word)) (f : Fields) (rest : List Byte)
    (x y last : Stim) (waits later : List Stim), s.Inv → cfgLegal s.cfg = true → s.NoReset → s.st = .decode →
    s.HoldsChunk bs → s.cfg.storeMode = .capability → unpackBytes bs = some (f, rest) →
    fieldError s.cfg s.rxCnt f = none → f.fc = 0x03 → 1 ≤ f.qty.toNat → f.qty.toNat ≤ 125 →
    s.inputs = x :: y :: (waits ++ last :: later) → (∀ w ∈ waits, w.pins.srDone = false) → last.pins.srDone = true →
    store f.addr f.qty = portAnswer waits last →
    match respond s.cfg store bs with
    | .reply a =>
      ∃ t, runSteps (waits.length + 4) s = .next t ∧ t.st = .send ∧ t.adu = a ∧ t.txLen = a.length ∧ t.txCnt = 0 ∧
        t.err = .none ∧ t.bytesWritten = s.bytesWritten ∧ t.storeReads = s.storeReads ++ [(f.addr, f.qty)]
    | .drop _ => False
    | .refuse => runSteps (waits.length + 4) s = .refused .storeContractBroken

/-- R131, R133: from `IDLE`, a chunk of at most `BUF_CAP` bytes waiting in the transport is received whole, one byte a step,
and nothing after it is taken. -/
def Obligations.ChunkReceivedWhole : Prop :=
  ∀ (s : State) (bs : List Byte) (q : List (Byte × Bool)), s.Inv → cfgLegal s.cfg = true → s.inputs = [] →
    s.st = .idle → s.pins.rxErr = false → s.rxq = chunkOf bs ++ q → bs ≠ [] → bs.length ≤ s.cfg.bufCap →
    ∃ t, runSteps bs.length s = .next t ∧ t.st = .decode ∧ t.HoldsChunk bs ∧ t.rxq = q ∧
      t.bytesWritten = s.bytesWritten

/-- R224, R225, R246, R247: a peer that takes every byte is written exactly the response, in order, each byte once; then the
block is in `IDLE` or `CLOSED`. -/
def Obligations.SendWritesWholeResponse : Prop :=
  ∀ s : State, s.Inv → cfgLegal s.cfg = true → s.inputs = [] → s.st = .send → s.txCnt = 0 → s.pins.txErr = false →
    s.pins.txReady = true →
    ∃ t, runSteps s.txLen s = .next t ∧ t.bytesWritten = s.bytesWritten ++ s.adu ∧
      t.st = (if s.cfg.multiReq then .idle else .closed) ∧ t.err = .none ∧ t.rxq = s.rxq

/-- R14, R244 to R247: from `IDLE`, a chunk in the transport for which `respond` does not ask a store, and a willing peer:
the block receives the chunk, writes exactly `respond`'s reply, takes no byte after the chunk, and ends in `IDLE` or
`CLOSED`; a drop writes nothing and closes. -/
def Obligations.ChunkInResponseOut : Prop :=
  ∀ (s : State) (bs : List Byte) (q : List (Byte × Bool)) (store : Word → Word → Option (List Word)), s.Inv →
    cfgLegal s.cfg = true → s.inputs = [] → s.st = .idle → s.pins.rxErr = false → s.pins.txErr = false →
    s.pins.txReady = true → ¬AsksStore s.cfg bs → s.rxq = chunkOf bs ++ q → bs ≠ [] →
    bs.length ≤ s.cfg.bufCap →
    match respond s.cfg store bs with
    | .reply a =>
      ∃ t, runSteps (bs.length + 4 + a.length) s = .next t ∧ t.bytesWritten = s.bytesWritten ++ a ∧
        t.st = (if s.cfg.multiReq then .idle else .closed) ∧ t.err = .none ∧ t.rxq = q
    | .drop e =>
      ∃ t, runSteps (bs.length + 4) s = .next t ∧ t.bytesWritten = s.bytesWritten ∧ t.st = .closed ∧ t.err = e
    | .refuse => runSteps (bs.length + 4) s = .refused .quantityBeyondLengthField

/-- R289, R298: a step of one instance changes no state of another. -/
def Obligations.InstancesAreIsolated : Prop :=
  ∀ (k j : Nat) (ss ts : List State), stepInstance k ss = .next ts → j ≠ k →
    ts[j]? = ss[j]? ∧ ts.length = ss.length

/-- R30, R37, R41: `STATUS` shows the codes 0 to 7 of `st` and 0 to 5 of `err`, and the field registers while they hold a
value. -/
def Obligations.StatusShowsCodes : Prop :=
  (∀ s : State, s.status = { st := stCode s.st, disp := s.disp, exc := s.exc, err := errCode s.err, rxCnt := s.rxCnt,
                             fields := s.fields }) ∧
    [St.idle, .recv, .decode, .dispatch, .exec, .encode, .send, .closed].map stCode = [0, 1, 2, 3, 4, 5, 6, 7] ∧
    [Err.none, .frameTooShort, .unsupportedProtocol, .frameTruncated, .rxFail, .txFail].map errCode =
      [0, 1, 2, 3, 4, 5]

/-- R270, R285: a drop, any transition that writes `err`, keeps no copy of the offending frame: `RX` and the field registers
hold no value; what remains is `err`, the counters and the log records. Nothing is written by it. -/
def Obligations.DropKeepsNoFrame : Prop :=
  ∀ s t : State, transition s = .next t → t.err ≠ s.err →
    (∀ a, t.rx.read a = none) ∧ t.fields = none ∧ t.rxCnt = s.rxCnt ∧ t.txCnt = s.txCnt ∧ t.txLen = s.txLen ∧
      s.logRecords <+: t.logRecords ∧ t.bytesWritten = s.bytesWritten ∧ t.cfg = s.cfg
end

