-- ==== Sys2Proof/Laws/State.lean ====
section
/-! SUPPORT. One lemma for each field of State under each named update, true by rfl, so that no proof unfolds a record
update. -/

namespace Sys2Proof.Machine

variable (s : State)

/-! ### `State.emit` -/

@[simp] theorem State.emit_cfg (e : Event) : (s.emit e).cfg = s.cfg := rfl
@[simp] theorem State.emit_st (e : Event) : (s.emit e).st = s.st := rfl
@[simp] theorem State.emit_rxCnt (e : Event) : (s.emit e).rxCnt = s.rxCnt := rfl
@[simp] theorem State.emit_txLen (e : Event) : (s.emit e).txLen = s.txLen := rfl
@[simp] theorem State.emit_txCnt (e : Event) : (s.emit e).txCnt = s.txCnt := rfl
@[simp] theorem State.emit_disp (e : Event) : (s.emit e).disp = s.disp := rfl
@[simp] theorem State.emit_exc (e : Event) : (s.emit e).exc = s.exc := rfl
@[simp] theorem State.emit_err (e : Event) : (s.emit e).err = s.err := rfl
@[simp] theorem State.emit_fields (e : Event) : (s.emit e).fields = s.fields := rfl
@[simp] theorem State.emit_rx (e : Event) : (s.emit e).rx = s.rx := rfl
@[simp] theorem State.emit_pdu (e : Event) : (s.emit e).pdu = s.pdu := rfl
@[simp] theorem State.emit_adu (e : Event) : (s.emit e).adu = s.adu := rfl
@[simp] theorem State.emit_srBusy (e : Event) : (s.emit e).srBusy = s.srBusy := rfl
@[simp] theorem State.emit_srWords (e : Event) : (s.emit e).srWords = s.srWords := rfl
@[simp] theorem State.emit_pins (e : Event) : (s.emit e).pins = s.pins := rfl
@[simp] theorem State.emit_rxq (e : Event) : (s.emit e).rxq = s.rxq := rfl
@[simp] theorem State.emit_inputs (e : Event) : (s.emit e).inputs = s.inputs := rfl
@[simp] theorem State.emit_trace (e : Event) : (s.emit e).trace = s.trace ++ [e] := rfl

/-! ### `State.goto` -/

@[simp] theorem State.goto_cfg (x : St) : (s.goto x).cfg = s.cfg := rfl
@[simp] theorem State.goto_st (x : St) : (s.goto x).st = x := rfl
@[simp] theorem State.goto_rxCnt (x : St) : (s.goto x).rxCnt = s.rxCnt := rfl
@[simp] theorem State.goto_txLen (x : St) : (s.goto x).txLen = s.txLen := rfl
@[simp] theorem State.goto_txCnt (x : St) : (s.goto x).txCnt = s.txCnt := rfl
@[simp] theorem State.goto_disp (x : St) : (s.goto x).disp = s.disp := rfl
@[simp] theorem State.goto_exc (x : St) : (s.goto x).exc = s.exc := rfl
@[simp] theorem State.goto_err (x : St) : (s.goto x).err = s.err := rfl
@[simp] theorem State.goto_fields (x : St) : (s.goto x).fields = s.fields := rfl
@[simp] theorem State.goto_rx (x : St) : (s.goto x).rx = s.rx := rfl
@[simp] theorem State.goto_pdu (x : St) : (s.goto x).pdu = s.pdu := rfl
@[simp] theorem State.goto_adu (x : St) : (s.goto x).adu = s.adu := rfl
@[simp] theorem State.goto_srBusy (x : St) : (s.goto x).srBusy = s.srBusy := rfl
@[simp] theorem State.goto_srWords (x : St) : (s.goto x).srWords = s.srWords := rfl
@[simp] theorem State.goto_pins (x : St) : (s.goto x).pins = s.pins := rfl
@[simp] theorem State.goto_rxq (x : St) : (s.goto x).rxq = s.rxq := rfl
@[simp] theorem State.goto_inputs (x : St) : (s.goto x).inputs = s.inputs := rfl
@[simp] theorem State.goto_trace (x : St) : (s.goto x).trace = s.trace := rfl

/-! ### `State.latchFields` -/

@[simp] theorem State.latchFields_cfg (f : Fields) : (s.latchFields f).cfg = s.cfg := rfl
@[simp] theorem State.latchFields_st (f : Fields) : (s.latchFields f).st = s.st := rfl
@[simp] theorem State.latchFields_rxCnt (f : Fields) : (s.latchFields f).rxCnt = s.rxCnt := rfl
@[simp] theorem State.latchFields_txLen (f : Fields) : (s.latchFields f).txLen = s.txLen := rfl
@[simp] theorem State.latchFields_txCnt (f : Fields) : (s.latchFields f).txCnt = s.txCnt := rfl
@[simp] theorem State.latchFields_disp (f : Fields) : (s.latchFields f).disp = s.disp := rfl
@[simp] theorem State.latchFields_exc (f : Fields) : (s.latchFields f).exc = s.exc := rfl
@[simp] theorem State.latchFields_err (f : Fields) : (s.latchFields f).err = s.err := rfl
@[simp] theorem State.latchFields_fields (f : Fields) : (s.latchFields f).fields = some f := rfl
@[simp] theorem State.latchFields_rx (f : Fields) : (s.latchFields f).rx = s.rx := rfl
@[simp] theorem State.latchFields_pdu (f : Fields) : (s.latchFields f).pdu = s.pdu := rfl
@[simp] theorem State.latchFields_adu (f : Fields) : (s.latchFields f).adu = s.adu := rfl
@[simp] theorem State.latchFields_srBusy (f : Fields) : (s.latchFields f).srBusy = s.srBusy := rfl
@[simp] theorem State.latchFields_srWords (f : Fields) : (s.latchFields f).srWords = s.srWords := rfl
@[simp] theorem State.latchFields_pins (f : Fields) : (s.latchFields f).pins = s.pins := rfl
@[simp] theorem State.latchFields_rxq (f : Fields) : (s.latchFields f).rxq = s.rxq := rfl
@[simp] theorem State.latchFields_inputs (f : Fields) : (s.latchFields f).inputs = s.inputs := rfl
@[simp] theorem State.latchFields_trace (f : Fields) : (s.latchFields f).trace = s.trace := rfl

/-! ### `State.issueStoreRead` -/

@[simp] theorem State.issueStoreRead_cfg (a q : Word) : (s.issueStoreRead a q).cfg = s.cfg := rfl
@[simp] theorem State.issueStoreRead_st (a q : Word) : (s.issueStoreRead a q).st = s.st := rfl
@[simp] theorem State.issueStoreRead_rxCnt (a q : Word) : (s.issueStoreRead a q).rxCnt = s.rxCnt := rfl
@[simp] theorem State.issueStoreRead_txLen (a q : Word) : (s.issueStoreRead a q).txLen = s.txLen := rfl
@[simp] theorem State.issueStoreRead_txCnt (a q : Word) : (s.issueStoreRead a q).txCnt = s.txCnt := rfl
@[simp] theorem State.issueStoreRead_disp (a q : Word) : (s.issueStoreRead a q).disp = s.disp := rfl
@[simp] theorem State.issueStoreRead_exc (a q : Word) : (s.issueStoreRead a q).exc = s.exc := rfl
@[simp] theorem State.issueStoreRead_err (a q : Word) : (s.issueStoreRead a q).err = s.err := rfl
@[simp] theorem State.issueStoreRead_fields (a q : Word) : (s.issueStoreRead a q).fields = s.fields := rfl
@[simp] theorem State.issueStoreRead_rx (a q : Word) : (s.issueStoreRead a q).rx = s.rx := rfl
@[simp] theorem State.issueStoreRead_pdu (a q : Word) : (s.issueStoreRead a q).pdu = s.pdu := rfl
@[simp] theorem State.issueStoreRead_adu (a q : Word) : (s.issueStoreRead a q).adu = s.adu := rfl
@[simp] theorem State.issueStoreRead_srBusy (a q : Word) : (s.issueStoreRead a q).srBusy = true := rfl
@[simp] theorem State.issueStoreRead_srWords (a q : Word) : (s.issueStoreRead a q).srWords = s.srWords := rfl
@[simp] theorem State.issueStoreRead_pins (a q : Word) : (s.issueStoreRead a q).pins = s.pins := rfl
@[simp] theorem State.issueStoreRead_rxq (a q : Word) : (s.issueStoreRead a q).rxq = s.rxq := rfl
@[simp] theorem State.issueStoreRead_inputs (a q : Word) : (s.issueStoreRead a q).inputs = s.inputs := rfl
@[simp] theorem State.issueStoreRead_trace (a q : Word) : (s.issueStoreRead a q).trace = s.trace ++ [.storeRead a q] := rfl

/-! ### `State.closeStoreRead` -/

@[simp] theorem State.closeStoreRead_cfg (r : Option (List Word)) : (s.closeStoreRead r).cfg = s.cfg := rfl
@[simp] theorem State.closeStoreRead_st (r : Option (List Word)) : (s.closeStoreRead r).st = s.st := rfl
@[simp] theorem State.closeStoreRead_rxCnt (r : Option (List Word)) : (s.closeStoreRead r).rxCnt = s.rxCnt := rfl
@[simp] theorem State.closeStoreRead_txLen (r : Option (List Word)) : (s.closeStoreRead r).txLen = s.txLen := rfl
@[simp] theorem State.closeStoreRead_txCnt (r : Option (List Word)) : (s.closeStoreRead r).txCnt = s.txCnt := rfl
@[simp] theorem State.closeStoreRead_disp (r : Option (List Word)) : (s.closeStoreRead r).disp = s.disp := rfl
@[simp] theorem State.closeStoreRead_exc (r : Option (List Word)) : (s.closeStoreRead r).exc = s.exc := rfl
@[simp] theorem State.closeStoreRead_err (r : Option (List Word)) : (s.closeStoreRead r).err = s.err := rfl
@[simp] theorem State.closeStoreRead_fields (r : Option (List Word)) : (s.closeStoreRead r).fields = s.fields := rfl
@[simp] theorem State.closeStoreRead_rx (r : Option (List Word)) : (s.closeStoreRead r).rx = s.rx := rfl
@[simp] theorem State.closeStoreRead_pdu (r : Option (List Word)) : (s.closeStoreRead r).pdu = s.pdu := rfl
@[simp] theorem State.closeStoreRead_adu (r : Option (List Word)) : (s.closeStoreRead r).adu = s.adu := rfl
@[simp] theorem State.closeStoreRead_srBusy (r : Option (List Word)) : (s.closeStoreRead r).srBusy = false := rfl
@[simp] theorem State.closeStoreRead_srWords (r : Option (List Word)) : (s.closeStoreRead r).srWords = [] := rfl
@[simp] theorem State.closeStoreRead_pins (r : Option (List Word)) : (s.closeStoreRead r).pins = s.pins := rfl
@[simp] theorem State.closeStoreRead_rxq (r : Option (List Word)) : (s.closeStoreRead r).rxq = s.rxq := rfl
@[simp] theorem State.closeStoreRead_inputs (r : Option (List Word)) : (s.closeStoreRead r).inputs = s.inputs := rfl
@[simp] theorem State.closeStoreRead_trace (r : Option (List Word)) : (s.closeStoreRead r).trace = s.trace ++ [.storeAnswer r] := rfl

/-! ### `State.reply` -/

@[simp] theorem State.reply_cfg (p : List Byte) (x : Byte) : (s.reply p x).cfg = s.cfg := rfl
@[simp] theorem State.reply_st (p : List Byte) (x : Byte) : (s.reply p x).st = .encode := rfl
@[simp] theorem State.reply_rxCnt (p : List Byte) (x : Byte) : (s.reply p x).rxCnt = s.rxCnt := rfl
@[simp] theorem State.reply_txLen (p : List Byte) (x : Byte) : (s.reply p x).txLen = s.txLen := rfl
@[simp] theorem State.reply_txCnt (p : List Byte) (x : Byte) : (s.reply p x).txCnt = s.txCnt := rfl
@[simp] theorem State.reply_disp (p : List Byte) (x : Byte) : (s.reply p x).disp = s.disp := rfl
@[simp] theorem State.reply_exc (p : List Byte) (x : Byte) : (s.reply p x).exc = x := rfl
@[simp] theorem State.reply_err (p : List Byte) (x : Byte) : (s.reply p x).err = s.err := rfl
@[simp] theorem State.reply_fields (p : List Byte) (x : Byte) : (s.reply p x).fields = s.fields := rfl
@[simp] theorem State.reply_rx (p : List Byte) (x : Byte) : (s.reply p x).rx = s.rx := rfl
@[simp] theorem State.reply_pdu (p : List Byte) (x : Byte) : (s.reply p x).pdu = p := rfl
@[simp] theorem State.reply_adu (p : List Byte) (x : Byte) : (s.reply p x).adu = s.adu := rfl
@[simp] theorem State.reply_srBusy (p : List Byte) (x : Byte) : (s.reply p x).srBusy = s.srBusy := rfl
@[simp] theorem State.reply_srWords (p : List Byte) (x : Byte) : (s.reply p x).srWords = s.srWords := rfl
@[simp] theorem State.reply_pins (p : List Byte) (x : Byte) : (s.reply p x).pins = s.pins := rfl
@[simp] theorem State.reply_rxq (p : List Byte) (x : Byte) : (s.reply p x).rxq = s.rxq := rfl
@[simp] theorem State.reply_inputs (p : List Byte) (x : Byte) : (s.reply p x).inputs = s.inputs := rfl
@[simp] theorem State.reply_trace (p : List Byte) (x : Byte) : (s.reply p x).trace = s.trace := rfl

/-! ### `State.raiseReply` -/

@[simp] theorem State.raiseReply_cfg (fc x : Byte) : (s.raiseReply fc x).cfg = s.cfg := rfl
@[simp] theorem State.raiseReply_st (fc x : Byte) : (s.raiseReply fc x).st = .encode := rfl
@[simp] theorem State.raiseReply_rxCnt (fc x : Byte) : (s.raiseReply fc x).rxCnt = s.rxCnt := rfl
@[simp] theorem State.raiseReply_txLen (fc x : Byte) : (s.raiseReply fc x).txLen = s.txLen := rfl
@[simp] theorem State.raiseReply_txCnt (fc x : Byte) : (s.raiseReply fc x).txCnt = s.txCnt := rfl
@[simp] theorem State.raiseReply_disp (fc x : Byte) : (s.raiseReply fc x).disp = s.disp := rfl
@[simp] theorem State.raiseReply_exc (fc x : Byte) : (s.raiseReply fc x).exc = x := rfl
@[simp] theorem State.raiseReply_err (fc x : Byte) : (s.raiseReply fc x).err = s.err := rfl
@[simp] theorem State.raiseReply_fields (fc x : Byte) : (s.raiseReply fc x).fields = s.fields := rfl
@[simp] theorem State.raiseReply_rx (fc x : Byte) : (s.raiseReply fc x).rx = s.rx := rfl
@[simp] theorem State.raiseReply_pdu (fc x : Byte) : (s.raiseReply fc x).pdu = [fc ||| 0x80, x] := rfl
@[simp] theorem State.raiseReply_adu (fc x : Byte) : (s.raiseReply fc x).adu = s.adu := rfl
@[simp] theorem State.raiseReply_srBusy (fc x : Byte) : (s.raiseReply fc x).srBusy = s.srBusy := rfl
@[simp] theorem State.raiseReply_srWords (fc x : Byte) : (s.raiseReply fc x).srWords = s.srWords := rfl
@[simp] theorem State.raiseReply_pins (fc x : Byte) : (s.raiseReply fc x).pins = s.pins := rfl
@[simp] theorem State.raiseReply_rxq (fc x : Byte) : (s.raiseReply fc x).rxq = s.rxq := rfl
@[simp] theorem State.raiseReply_inputs (fc x : Byte) : (s.raiseReply fc x).inputs = s.inputs := rfl
@[simp] theorem State.raiseReply_trace (fc x : Byte) : (s.raiseReply fc x).trace = s.trace := rfl

/-! ### `State.drop` -/

@[simp] theorem State.drop_cfg (e : Err) : (s.drop e).cfg = s.cfg := rfl
@[simp] theorem State.drop_st (e : Err) : (s.drop e).st = .closed := rfl
@[simp] theorem State.drop_rxCnt (e : Err) : (s.drop e).rxCnt = s.rxCnt := rfl
@[simp] theorem State.drop_txLen (e : Err) : (s.drop e).txLen = s.txLen := rfl
@[simp] theorem State.drop_txCnt (e : Err) : (s.drop e).txCnt = s.txCnt := rfl
@[simp] theorem State.drop_disp (e : Err) : (s.drop e).disp = s.disp := rfl
@[simp] theorem State.drop_exc (e : Err) : (s.drop e).exc = s.exc := rfl
@[simp] theorem State.drop_err (e : Err) : (s.drop e).err = e := rfl
@[simp] theorem State.drop_fields (e : Err) : (s.drop e).fields = none := rfl
@[simp] theorem State.drop_rx (e : Err) : (s.drop e).rx = [] := rfl
@[simp] theorem State.drop_pdu (e : Err) : (s.drop e).pdu = [] := rfl
@[simp] theorem State.drop_adu (e : Err) : (s.drop e).adu = [] := rfl
@[simp] theorem State.drop_srBusy (e : Err) : (s.drop e).srBusy = s.srBusy := rfl
@[simp] theorem State.drop_srWords (e : Err) : (s.drop e).srWords = s.srWords := rfl
@[simp] theorem State.drop_pins (e : Err) : (s.drop e).pins = s.pins := rfl
@[simp] theorem State.drop_rxq (e : Err) : (s.drop e).rxq = s.rxq := rfl
@[simp] theorem State.drop_inputs (e : Err) : (s.drop e).inputs = s.inputs := rfl
@[simp] theorem State.drop_trace (e : Err) : (s.drop e).trace = s.trace := rfl

/-! ### `State.reinit` -/

@[simp] theorem State.reinit_cfg : s.reinit.cfg = s.cfg := rfl
@[simp] theorem State.reinit_st : s.reinit.st = s.st := rfl
@[simp] theorem State.reinit_rxCnt : s.reinit.rxCnt = 0 := rfl
@[simp] theorem State.reinit_txLen : s.reinit.txLen = 0 := rfl
@[simp] theorem State.reinit_txCnt : s.reinit.txCnt = 0 := rfl
@[simp] theorem State.reinit_disp : s.reinit.disp = .none := rfl
@[simp] theorem State.reinit_exc : s.reinit.exc = 0x00 := rfl
@[simp] theorem State.reinit_err : s.reinit.err = s.err := rfl
@[simp] theorem State.reinit_fields : s.reinit.fields = none := rfl
@[simp] theorem State.reinit_rx : s.reinit.rx = [] := rfl
@[simp] theorem State.reinit_pdu : s.reinit.pdu = [] := rfl
@[simp] theorem State.reinit_adu : s.reinit.adu = [] := rfl
@[simp] theorem State.reinit_srBusy : s.reinit.srBusy = false := rfl
@[simp] theorem State.reinit_srWords : s.reinit.srWords = [] := rfl
@[simp] theorem State.reinit_pins : s.reinit.pins = s.pins := rfl
@[simp] theorem State.reinit_rxq : s.reinit.rxq = s.rxq := rfl
@[simp] theorem State.reinit_inputs : s.reinit.inputs = s.inputs := rfl
@[simp] theorem State.reinit_trace : s.reinit.trace = s.trace := rfl

/-! ### `State.resetBlock` -/

@[simp] theorem State.resetBlock_cfg : s.resetBlock.cfg = s.pins.straps := rfl
@[simp] theorem State.resetBlock_st : s.resetBlock.st = .idle := rfl
@[simp] theorem State.resetBlock_rxCnt : s.resetBlock.rxCnt = 0 := rfl
@[simp] theorem State.resetBlock_txLen : s.resetBlock.txLen = 0 := rfl
@[simp] theorem State.resetBlock_txCnt : s.resetBlock.txCnt = 0 := rfl
@[simp] theorem State.resetBlock_disp : s.resetBlock.disp = .none := rfl
@[simp] theorem State.resetBlock_exc : s.resetBlock.exc = 0x00 := rfl
@[simp] theorem State.resetBlock_err : s.resetBlock.err = .none := rfl
@[simp] theorem State.resetBlock_fields : s.resetBlock.fields = none := rfl
@[simp] theorem State.resetBlock_rx : s.resetBlock.rx = [] := rfl
@[simp] theorem State.resetBlock_pdu : s.resetBlock.pdu = [] := rfl
@[simp] theorem State.resetBlock_adu : s.resetBlock.adu = [] := rfl
@[simp] theorem State.resetBlock_srBusy : s.resetBlock.srBusy = false := rfl
@[simp] theorem State.resetBlock_srWords : s.resetBlock.srWords = [] := rfl
@[simp] theorem State.resetBlock_pins : s.resetBlock.pins = { s.pins with rxEof := false, rxErr := false, txErr := false } := rfl
@[simp] theorem State.resetBlock_rxq : s.resetBlock.rxq = s.rxq := rfl
@[simp] theorem State.resetBlock_inputs : s.resetBlock.inputs = s.inputs := rfl
@[simp] theorem State.resetBlock_trace : s.resetBlock.trace = s.trace ++ [.reset] := rfl

/-! ### `State.sample`: the block's own fields and the trace are untouched -/

@[simp] theorem State.sample_cfg : s.sample.cfg = s.cfg := by unfold State.sample; split <;> rfl
@[simp] theorem State.sample_st : s.sample.st = s.st := by unfold State.sample; split <;> rfl
@[simp] theorem State.sample_rxCnt : s.sample.rxCnt = s.rxCnt := by unfold State.sample; split <;> rfl
@[simp] theorem State.sample_txLen : s.sample.txLen = s.txLen := by unfold State.sample; split <;> rfl
@[simp] theorem State.sample_txCnt : s.sample.txCnt = s.txCnt := by unfold State.sample; split <;> rfl
@[simp] theorem State.sample_disp : s.sample.disp = s.disp := by unfold State.sample; split <;> rfl
@[simp] theorem State.sample_exc : s.sample.exc = s.exc := by unfold State.sample; split <;> rfl
@[simp] theorem State.sample_err : s.sample.err = s.err := by unfold State.sample; split <;> rfl
@[simp] theorem State.sample_fields : s.sample.fields = s.fields := by unfold State.sample; split <;> rfl
@[simp] theorem State.sample_rx : s.sample.rx = s.rx := by unfold State.sample; split <;> rfl
@[simp] theorem State.sample_pdu : s.sample.pdu = s.pdu := by unfold State.sample; split <;> rfl
@[simp] theorem State.sample_adu : s.sample.adu = s.adu := by unfold State.sample; split <;> rfl
@[simp] theorem State.sample_srBusy : s.sample.srBusy = s.srBusy := by unfold State.sample; split <;> rfl
@[simp] theorem State.sample_srWords : s.sample.srWords = s.srWords := by unfold State.sample; split <;> rfl
@[simp] theorem State.sample_trace : s.sample.trace = s.trace := by unfold State.sample; split <;> rfl

theorem State.sample_of_no_inputs {s : State} (h : s.inputs = []) : s.sample = s := by simp [State.sample, h]

theorem State.resetRequested_of_no_inputs {s : State} (h : s.inputs = []) : s.resetRequested = false := by
  simp [State.resetRequested, h]

end Sys2Proof.Machine
end

