-- ==== Sys2Proof/Laws/Memory.lean ====
section
/-! SUPPORT. The byte memory: reads after writes, the canonical form, memories made of a byte sequence; and what the
receive buffer reads when it holds a chunk. -/

namespace Sys2Proof.Machine

theorem Memory.read_write (m : Memory) (a k : Nat) (b : Byte) :
    (m.write a b).read k = if k = a then some b else m.read k := by
  induction m with
  | nil => simp [Memory.write, Memory.read]
  | cons x m ih =>
    obtain ⟨c, v⟩ := x
    simp only [Memory.write]
    split
    · simp only [Memory.read]
    · split
      · rename_i h
        subst h
        simp only [Memory.read]
        split <;> rfl
      · rename_i h1 h2
        simp only [Memory.read, ih]
        split
        · rename_i hk
          subst hk
          rw [if_neg (fun h => h2 h.symm)]
        · rfl

theorem Memory.mem_write {m : Memory} {a : Nat} {b : Byte} {x : Host.Cell} (h : x ∈ m.write a b) :
    x = (a, b) ∨ x ∈ m := by
  induction m with
  | nil => simpa [Memory.write] using h
  | cons y m ih =>
    obtain ⟨c, v⟩ := y
    simp only [Memory.write] at h
    split at h
    · simpa using h
    · split at h
      · rcases List.mem_cons.1 h with h | h
        · exact .inl h
        · exact .inr (List.mem_cons_of_mem _ h)
      · rcases List.mem_cons.1 h with h | h
        · exact .inr (h ▸ List.mem_cons_self)
        · exact (ih h).imp id (List.mem_cons_of_mem _)

/-- Writing a byte keeps the canonical form. -/
theorem Memory.write_wf {m : Memory} (h : m.wf) (a : Nat) (b : Byte) : (m.write a b).wf := by
  induction m with
  | nil => simp [Memory.write, Memory.wf]
  | cons y m ih =>
    obtain ⟨c, v⟩ := y
    obtain ⟨hlt, hm⟩ := List.pairwise_cons.1 h
    simp only [Memory.write]
    split
    · rename_i hac
      refine List.pairwise_cons.2 ⟨fun z hz => ?_, h⟩
      rcases List.mem_cons.1 hz with rfl | hz
      · exact hac
      · exact Nat.lt_trans hac (hlt z hz)
    · split
      · rename_i hac
        subst hac
        exact List.pairwise_cons.2 ⟨hlt, hm⟩
      · rename_i h1 h2
        refine List.pairwise_cons.2 ⟨fun z hz => ?_, ih hm⟩
        rcases Memory.mem_write hz with rfl | hz
        · exact Nat.lt_of_le_of_ne (Nat.le_of_not_lt h1) (Ne.symm h2)
        · exact hlt z hz

theorem Memory.mem_ofBytes {base : Nat} {bs : List Byte} {x : Host.Cell} (h : x ∈ Memory.ofBytes base bs) :
    base ≤ x.1 := by
  induction bs generalizing base with
  | nil => simp [Memory.ofBytes] at h
  | cons b bs ih =>
    rcases List.mem_cons.1 h with rfl | h
    · exact Nat.le_refl _
    · exact Nat.le_of_succ_le (ih h)

/-- A memory made of a byte sequence is canonical. -/
theorem Memory.ofBytes_wf (base : Nat) (bs : List Byte) : (Memory.ofBytes base bs).wf := by
  induction bs generalizing base with
  | nil => simp [Memory.ofBytes, Memory.wf]
  | cons b bs ih => exact List.pairwise_cons.2 ⟨fun _ hz => Memory.mem_ofBytes hz, ih _⟩

theorem Memory.read_ofBytes (base k : Nat) (bs : List Byte) :
    (Memory.ofBytes base bs).read k = if base ≤ k then bs[k - base]? else none := by
  induction bs generalizing base with
  | nil => simp [Memory.ofBytes, Memory.read]
  | cons b bs ih =>
    simp only [Memory.ofBytes, Memory.read, ih]
    split
    · rename_i h
      subst h
      simp
    · rename_i h
      by_cases hb : base ≤ k
      · rw [if_pos (by omega), if_pos hb, show k - base = (k - (base + 1)) + 1 by omega, List.getElem?_cons_succ]
      · rw [if_neg (by omega), if_neg hb]

theorem Memory.read_ofBytes_zero (k : Nat) (bs : List Byte) : (Memory.ofBytes 0 bs).read k = bs[k]? := by
  simp [Memory.read_ofBytes]

/-- Storing the next byte of a chunk extends the byte sequence (R132). -/
theorem Memory.write_ofBytes_end (base : Nat) (bs : List Byte) (b : Byte) :
    (Memory.ofBytes base bs).write (base + bs.length) b = Memory.ofBytes base (bs ++ [b]) := by
  induction bs generalizing base with
  | nil => simp [Memory.ofBytes, Memory.write]
  | cons c bs ih =>
    have h := ih (base + 1)
    rw [show base + 1 + bs.length = base + (c :: bs).length by simp; omega] at h
    simp only [Memory.ofBytes, List.cons_append, Memory.write]
    rw [if_neg (by simp), if_neg (by simp), h]

/-- A memory that holds a byte sequence gives it back. -/
theorem Memory.firstBytes_ofBytes (bs : List Byte) : (Memory.ofBytes 0 bs).firstBytes bs.length = some bs := by
  have h : ∀ n, n ≤ bs.length → (Memory.ofBytes 0 bs).firstBytes n = some (bs.take n) := by
    intro n
    induction n with
    | zero => intro _; rfl
    | succ n ih =>
      intro hn
      have hlt : n < bs.length := hn
      simp only [Memory.firstBytes, ih (Nat.le_of_lt hn), Memory.read_ofBytes_zero, List.getElem?_eq_getElem hlt,
        Option.bind_some, Option.map_some, List.take_append_getElem]
  simpa using h bs.length (Nat.le_refl _)

/-! ### The receive buffer -/

theorem State.storeRxByte_eq {s : State} (b : Byte) (h : s.rxCnt < s.cfg.bufCap) :
    s.storeRxByte b = some { s with rx := s.rx.write s.rxCnt b, rxCnt := s.rxCnt + 1 } := if_pos h

theorem State.HoldsChunk.memReadByte {s : State} {bs : List Byte} (h : s.HoldsChunk bs) (k : Nat) :
    s.memReadByte k = bs[k]? := by
  simp only [State.memReadByte, h.1, h.2, Memory.read_ofBytes_zero]
  split
  · rfl
  · exact (List.getElem?_eq_none (by omega)).symm

/-- The unpack's seven reads give the fields of the chunk's first 12 bytes (R141, R90). -/
theorem State.HoldsChunk.unpack {s : State} {bs : List Byte} (h : s.HoldsChunk bs) :
    s.unpack = (unpackBytes bs).map Prod.fst := by
  simp only [State.unpack, State.memReadWord, h.memReadByte]
  match bs with
  | [] | [_] | [_, _] | [_, _, _] | [_, _, _, _] | [_, _, _, _, _] | [_, _, _, _, _, _] | [_, _, _, _, _, _, _]
  | [_, _, _, _, _, _, _, _] | [_, _, _, _, _, _, _, _, _] | [_, _, _, _, _, _, _, _, _, _]
  | [_, _, _, _, _, _, _, _, _, _, _] => rfl
  | _ :: _ :: _ :: _ :: _ :: _ :: _ :: _ :: _ :: _ :: _ :: _ :: _ => rfl

theorem unpackBytes_isSome {bs : List Byte} : (unpackBytes bs).isSome = true ↔ 12 ≤ bs.length := by
  match bs with
  | [] | [_] | [_, _] | [_, _, _] | [_, _, _, _] | [_, _, _, _, _] | [_, _, _, _, _, _] | [_, _, _, _, _, _, _]
  | [_, _, _, _, _, _, _, _] | [_, _, _, _, _, _, _, _, _] | [_, _, _, _, _, _, _, _, _, _]
  | [_, _, _, _, _, _, _, _, _, _, _] => simp [unpackBytes]
  | _ :: _ :: _ :: _ :: _ :: _ :: _ :: _ :: _ :: _ :: _ :: _ :: _ => simp [unpackBytes]

end Sys2Proof.Machine
end

