-- ==== Sys2Proof/Laws/Ops.lean ====
section
/-! SUPPORT. One lemma for each shared operation that says everything it can do: the response build, the handlers, the
Frame Reader, the store read, and the step. -/

namespace Sys2Proof.Machine

/-! ### Big-endian fields -/

/-- The law of R115: `UBE16(BE16(v)) = v`. -/
theorem ube16_be16 (v : Word) : ube16 (v.extractLsb' 8 8) (v.extractLsb' 0 8) = v := by
  apply BitVec.eq_of_toNat_eq
  simp only [ube16, BitVec.toNat_ofNat, BitVec.extractLsb'_toNat, Nat.shiftRight_zero]
  have := v.isLt
  simp only [Nat.shiftRight_eq_div_pow]
  omega

@[simp] theorem be16_length (v : Word) : (be16 v).length = 2 := rfl

/-! ### The response build -/

theorem memWriteByte_end (tx : List Byte) (b : Byte) : memWriteByte tx tx.length b = some (tx ++ [b]) := by
  simp [memWriteByte]

theorem memWriteWord_end (tx : List Byte) (v : Word) : memWriteWord tx tx.length v = some (tx ++ be16 v) := by
  have h := memWriteByte_end (tx ++ [v.extractLsb' 8 8]) (v.extractLsb' 0 8)
  simp only [List.length_append, List.length_singleton] at h
  simp [memWriteWord, memWriteByte_end, h, be16]

theorem memWriteBytes_end (tx bs : List Byte) : memWriteBytes tx tx.length bs = some (tx ++ bs) := by
  induction bs generalizing tx with
  | nil => simp [memWriteBytes]
  | cons b bs ih =>
    have h := ih (tx ++ [b])
    simp only [List.length_append, List.length_singleton] at h
    simp [memWriteBytes, memWriteByte_end, h]

/-- The `MemWrite`s of R221 leave the concatenation that rule states, if the length fits. -/
theorem buildAdu_eq (f : Fields) (pdu : List Byte) (h : 1 + pdu.length ≤ maxLength) :
    buildAdu f.tid f.pid f.uid pdu = some (respondAdu f pdu) := by
  have e1 := memWriteWord_end [] f.tid
  have e2 := memWriteWord_end (be16 f.tid) f.pid
  have e3 := memWriteWord_end (be16 f.tid ++ be16 f.pid) (BitVec.ofNat 16 (1 + pdu.length))
  have e4 := memWriteByte_end (be16 f.tid ++ be16 f.pid ++ be16 (BitVec.ofNat 16 (1 + pdu.length))) f.uid
  have e5 := memWriteBytes_end (be16 f.tid ++ be16 f.pid ++ be16 (BitVec.ofNat 16 (1 + pdu.length)) ++ [f.uid]) pdu
  simp only [List.length_nil, List.nil_append, List.length_append, be16_length, List.length_singleton,
    Nat.reduceAdd] at e1 e2 e3 e4 e5
  simp only [buildAdu, if_pos h, hdrLen, e1, e2, e3, e4, e5, Option.bind_some, respondAdu]

/-- No ADU is built for a PDU whose length field does not fit (R228). -/
theorem buildAdu_none {tid pid : Word} {uid : Byte} {pdu : List Byte} (h : maxLength < 1 + pdu.length) :
    buildAdu tid pid uid pdu = none := if_neg (by omega)

@[simp] theorem respondAdu_length (f : Fields) (pdu : List Byte) : (respondAdu f pdu).length = 7 + pdu.length := by
  simp [respondAdu]
  omega

@[simp] theorem dataBytes_length (ws : List Word) : (dataBytes ws).length = 2 * ws.length := by
  induction ws with
  | nil => rfl
  | cons w ws ih => simp [dataBytes] at ih ⊢; omega

@[simp] theorem successPdu_length (qty : Word) (ws : List Word) : (successPdu qty ws).length = 2 + 2 * ws.length := by
  simp [successPdu]
  omega

@[simp] theorem placeholderWords_length (qty : Word) : (placeholderWords qty).length = qty.toNat := by
  simp [placeholderWords]

/-- The placeholder data is `12 34` repeated `QTY` times (R175). -/
theorem dataBytes_placeholder (qty : Word) :
    dataBytes (placeholderWords qty) = (List.replicate qty.toNat [(0x12 : Byte), 0x34]).flatten := by
  simp only [dataBytes, placeholderWords]
  induction qty.toNat with
  | zero => rfl
  | succ n ih => rw [List.replicate_succ, List.replicate_succ, List.flatMap_cons, List.flatten_cons, ih]; rfl

/-- Which bit of which field a bit of the 96-bit string is (R90). -/
theorem fieldsBits_getLsbD (f : Fields) (i : Nat) :
    f.bits.getLsbD i =
      if i < 16 then f.qty.getLsbD i else if i < 32 then f.addr.getLsbD (i - 16)
      else if i < 40 then f.fc.getLsbD (i - 32) else if i < 48 then f.uid.getLsbD (i - 40)
      else if i < 64 then f.len.getLsbD (i - 48) else if i < 80 then f.pid.getLsbD (i - 64)
      else f.tid.getLsbD (i - 80) := by
  show BitVec.getLsbD (w := 16 + 16 + 16 + 8 + 8 + 16 + 16)
    (f.tid ++ f.pid ++ f.len ++ f.uid ++ f.fc ++ f.addr ++ f.qty) i = _
  simp only [BitVec.getLsbD_append, Nat.sub_sub]
  norm_num
  split_ifs <;> first | rfl | omega

/-! ### The handlers -/

/-- The handler of R190 always answers, and changes `pdu`, `exc` and `st` alone. -/
theorem illegalFunction_eq (fc : Byte) (s : State) : illegalFunction fc s = .next (s.raiseReply fc 0x01) := rfl

/-- Every request whose function code is not 0x03 takes the illegal-function path (R163, R190). -/
theorem exec_of_not_rhr {i : Instr} (s : State) (h : ∀ r, i ≠ .rhr r) : exec i s = .next (s.raiseReply i.fc 0x01) := by
  cases i <;> first | rfl | exact absurd rfl (h _)

/-- What a step of the store read can answer: the success reply, the address exception, a wait; it never faults. -/
theorem storeReadStep_cases {addr qty : Word} {s t : State} (h : storeReadStep addr qty s = .next t) :
    (s.pins.srDone = true ∧ s.pins.srOk = true ∧ s.collectedWords.length = qty.toNat ∧
        t = ((s.requestStore addr qty).closeStoreRead (some s.collectedWords)).replyWords qty s.collectedWords) ∨
      (s.pins.srDone = true ∧ s.pins.srOk = false ∧
        t = ((s.requestStore addr qty).closeStoreRead none).raiseReply 0x03 0x02) ∨
      (s.pins.srDone = false ∧ t = { s.requestStore addr qty with srWords := s.collectedWords }) := by
  unfold storeReadStep at h
  split at h
  · rename_i hd
    split at h
    · rename_i ho
      split at h
      · rename_i hl
        exact .inl ⟨hd, ho, hl, by simpa using h.symm⟩
      · cases h
    · rename_i ho
      exact .inr (.inl ⟨hd, by simpa using ho, by simpa [fcRhr, excIllegalDataAddress] using h.symm⟩)
  · rename_i hd
    exact .inr (.inr ⟨by simpa using hd, by simpa using h.symm⟩)

/-- What a Read Holding Registers request can answer (R171): the value exception, the placeholder data, or a step of the
store read under `STRICT`. -/
theorem execRhr_cases {r : Request} {s t : State} (h : execRhr r s = .next t) :
    (quantityRejected s.cfg r.qty = true ∧ t = s.raiseReply 0x03 0x03) ∨
      (quantityRejected s.cfg r.qty = false ∧ quantityRefused s.cfg r.qty = false ∧
        s.cfg.storeMode = .placeholder ∧ t = s.replyWords r.qty (placeholderWords r.qty)) ∨
      (quantityRejected s.cfg r.qty = false ∧ s.cfg.qtyPolicy = .strict ∧ s.cfg.storeMode = .capability ∧
        storeReadStep r.addr r.qty s = .next t) := by
  unfold execRhr at h
  split at h
  · rename_i hq
    exact .inl ⟨hq, by simpa [fcRhr, excIllegalDataValue] using h.symm⟩
  · rename_i hq
    split at h
    · cases h
    · rename_i hr
      split at h
      · rename_i hm
        exact .inr (.inl ⟨by simpa using hq, by simpa using hr, hm, by simpa using h.symm⟩)
      · rename_i hm
        split at h
        · cases h
        · rename_i hp
          refine .inr (.inr ⟨by simpa using hq, ?_, hm, h⟩)
          cases hc : s.cfg.qtyPolicy with
          | strict => rfl
          | reference => exact absurd hc hp

theorem storeReadStep_ne_fault (addr qty : Word) (s : State) (r : Fault) : storeReadStep addr qty s ≠ .fault r := by
  unfold storeReadStep
  split <;> (try split) <;> (try split) <;> simp

/-- No handler faults. -/
theorem exec_ne_fault (i : Instr) (s : State) (r : Fault) : exec i s ≠ .fault r := by
  by_cases h : ∃ q, i = .rhr q
  · obtain ⟨q, rfl⟩ := h
    show execRhr q s ≠ .fault r
    unfold execRhr
    split
    · simp
    · split
      · simp
      · split
        · simp
        · split
          · simp
          · exact storeReadStep_ne_fault _ _ _ _
  · simp [exec_of_not_rhr s (fun q hq => h ⟨q, hq⟩)]

/-! ### The function-code map -/

theorem toInstr_fields (f : Fields) : f.toInstr.fields = f := by
  obtain ⟨tid, pid, len, uid, fc, addr, qty⟩ := f
  have key : ∀ n : Nat, fc.toNat = n → fc = BitVec.ofNat 8 n := fun n h => by
    apply BitVec.eq_of_toNat_eq
    have := fc.isLt
    simp only [BitVec.toNat_ofNat]
    omega
  unfold Fields.toInstr
  split <;> first
    | (rename_i h; rw [key _ h]; rfl)
    | rfl

@[simp] theorem toInstr_fc (f : Fields) : f.toInstr.fc = f.fc := congrArg Fields.fc (toInstr_fields f)

@[simp] theorem toInstr_request (f : Fields) : f.toInstr.request = f.toRequest :=
  congrArg Fields.toRequest (toInstr_fields f)

/-- The map selects Read Holding Registers exactly for function code 0x03 (R100). -/
theorem toInstr_rhr {f : Fields} (h : f.fc = 0x03) : f.toInstr = .rhr f.toRequest := by
  simp [Fields.toInstr, h]

theorem toInstr_not_rhr {f : Fields} (h : f.fc ≠ 0x03) (r : Request) : f.toInstr ≠ .rhr r := fun e => by
  have := congrArg Instr.fc e
  rw [toInstr_fc] at this
  exact h this

/-! ### The step -/

/-- Without a reset, and under legal straps, a step is the transition from the sampled inputs. -/
theorem step_eq_transition {s : State} (hr : s.resetRequested = false) (hc : cfgLegal s.cfg = true) :
    step s = transition s.sample := by
  simp [step, connectionStep, hr, hc]

/-- Everything a step can do when it answers: the reset, or the transition under legal straps. -/
theorem step_cases {s t : State} (h : step s = .next t) :
    (s.resetRequested = true ∧ t = s.sample.resetBlock) ∨
      (s.resetRequested = false ∧ cfgLegal s.cfg = true ∧ transition s.sample = .next t) := by
  unfold step connectionStep at h
  split at h
  · rename_i hr
    exact .inl ⟨hr, by simpa using h.symm⟩
  · rename_i hr
    split at h
    · rename_i hc
      exact .inr ⟨by simpa using hr, by simpa using hc, h⟩
    · cases h

theorem cfgLegal_bufCap {c : Cfg} (h : cfgLegal c = true) : 12 ≤ c.bufCap := by
  simp only [cfgLegal, minFrame, Bool.and_eq_true] at h
  exact of_decide_eq_true h.1

theorem cfgLegal_capability {c : Cfg} (h : cfgLegal c = true) (hm : c.storeMode = .capability) :
    c.qtyPolicy = .strict := by
  cases hp : c.qtyPolicy with
  | strict => rfl
  | reference => simp [cfgLegal, hp, hm] at h

end Sys2Proof.Machine
end

