-- ==== Sys2Proof/Laws/PerInstr.lean ====
section
/-! SUPPORT. A statement about every request as syntax, one lemma for each constructor: its words are 12 bytes, with the
function code at offset 7 (R90). -/

namespace Sys2Proof.Laws.EncodeShape

/-- The words of a request: 12 bytes, byte 7 its function code, whatever the operands (R90, R100). -/
def Statement (i : Sys2Proof.Instr) : Prop :=
  (Sys2Proof.encode i).length = 12 ∧ (Sys2Proof.encode i)[7]? = some i.fc

theorem rc (r : Sys2Proof.Request) : Statement (.rc r) := ⟨rfl, rfl⟩
theorem rdi (r : Sys2Proof.Request) : Statement (.rdi r) := ⟨rfl, rfl⟩
theorem rhr (r : Sys2Proof.Request) : Statement (.rhr r) := ⟨rfl, rfl⟩
theorem rir (r : Sys2Proof.Request) : Statement (.rir r) := ⟨rfl, rfl⟩
theorem wsc (r : Sys2Proof.Request) : Statement (.wsc r) := ⟨rfl, rfl⟩
theorem wsr (r : Sys2Proof.Request) : Statement (.wsr r) := ⟨rfl, rfl⟩
theorem res (r : Sys2Proof.Request) : Statement (.res r) := ⟨rfl, rfl⟩
theorem diag (r : Sys2Proof.Request) : Statement (.diag r) := ⟨rfl, rfl⟩
theorem gcec (r : Sys2Proof.Request) : Statement (.gcec r) := ⟨rfl, rfl⟩
theorem gcel (r : Sys2Proof.Request) : Statement (.gcel r) := ⟨rfl, rfl⟩
theorem wmc (r : Sys2Proof.Request) : Statement (.wmc r) := ⟨rfl, rfl⟩
theorem wmr (r : Sys2Proof.Request) : Statement (.wmr r) := ⟨rfl, rfl⟩
theorem rsid (r : Sys2Proof.Request) : Statement (.rsid r) := ⟨rfl, rfl⟩
theorem rfr (r : Sys2Proof.Request) : Statement (.rfr r) := ⟨rfl, rfl⟩
theorem wfr (r : Sys2Proof.Request) : Statement (.wfr r) := ⟨rfl, rfl⟩
theorem mwr (r : Sys2Proof.Request) : Statement (.mwr r) := ⟨rfl, rfl⟩
theorem rwmr (r : Sys2Proof.Request) : Statement (.rwmr r) := ⟨rfl, rfl⟩
theorem rfq (r : Sys2Proof.Request) : Statement (.rfq r) := ⟨rfl, rfl⟩
theorem unk (fc : Sys2Proof.Byte) (r : Sys2Proof.Request) : Statement (.unk fc r) := ⟨rfl, rfl⟩

end Sys2Proof.Laws.EncodeShape
end

