-- ==== Sys2Proof/Laws/Transition.lean ====
section
/-! SUPPORT. Everything a transition can do, said once: the rows of R241 and the waits, as a relation, and the proof that a
transition that answers is one of them. Later proofs go by cases on `TransitionRow`. -/

namespace Sys2Proof.Machine

/-- The rows of R241, with the waits of a state that has no row for what is at its ports. -/
inductive TransitionRow (s : State) : State → Prop where
  | readFailure (hs : s.st = .idle ∨ s.st = .recv) (he : s.pins.rxErr = true) : TransitionRow s (readFailure s)
  | byteAccepted (hs : s.st = .idle ∨ s.st = .recv) (he : s.pins.rxErr = false) (b : Byte) (last : Bool)
      (q : List (Byte × Bool)) (hq : s.rxq = (b, last) :: q) (hlt : s.rxCnt < s.cfg.bufCap) :
      TransitionRow s
        ((({ s with rx := s.rx.write s.rxCnt b, rxCnt := s.rxCnt + 1, rxq := q } : State).emit (.rxByte b last)).goto
          (if last = true ∨ s.rxCnt + 1 = s.cfg.bufCap then .decode else .recv))
  | endBetweenRequests (hs : s.st = .idle) (he : s.pins.rxErr = false) (hq : s.rxq = []) (hf : s.pins.rxEof = true) :
      TransitionRow s ((s.emit .rxEof).goto .closed)
  | endOfChunk (hs : s.st = .recv) (he : s.pins.rxErr = false) (hq : s.rxq = []) (hf : s.pins.rxEof = true) :
      TransitionRow s ((s.emit .rxEof).goto .decode)
  | waitForByte (hs : s.st = .idle ∨ s.st = .recv) (he : s.pins.rxErr = false) (hq : s.rxq = [])
      (hf : s.pins.rxEof = false) : TransitionRow s s
  | frameTooShort (hs : s.st = .decode) (hn : s.rxCnt < 12) : TransitionRow s (s.drop .frameTooShort)
  | fieldsRejected (hs : s.st = .decode) (hn : 12 ≤ s.rxCnt) (f : Fields) (hu : s.unpack = some f) (e : Err)
      (he : fieldError s.cfg s.rxCnt f = some e) : TransitionRow s ((s.unpackAndLog f).drop e)
  | fieldsAccepted (hs : s.st = .decode) (hn : 12 ≤ s.rxCnt) (f : Fields) (hu : s.unpack = some f)
      (he : fieldError s.cfg s.rxCnt f = none) : TransitionRow s ((s.unpackAndLog f).goto .dispatch)
  | dispatched (hs : s.st = .dispatch) (f : Fields) (hf : s.fields = some f) :
      TransitionRow s (({ s with disp := classify f.fc } : State).goto .exec)
  | handled (hs : s.st = .exec) (i : Instr) (hi : s.currentRequest = some i) (t : State) (hx : exec i s = .next t) :
      TransitionRow s t
  | encoded (hs : s.st = .encode) (f : Fields) (hf : s.fields = some f) (hl : 1 + s.pdu.length ≤ 65535) :
      TransitionRow s
        (({ s with adu := respondAdu f s.pdu, txLen := 7 + s.pdu.length, txCnt := 0 } : State).goto .send)
  | writeFailure (hs : s.st = .send) (he : s.pins.txErr = true) : TransitionRow s ((s.emit .txErr).drop .txFail)
  | byteWritten (hs : s.st = .send) (he : s.pins.txErr = false) (hr : s.pins.txReady = true) (b : Byte)
      (hb : s.txData = some b) (hl : s.txLast = false) :
      TransitionRow s { s.emit (.txByte b false) with txCnt := s.txCnt + 1 }
  | lastByteWritten (hs : s.st = .send) (he : s.pins.txErr = false) (hr : s.pins.txReady = true) (b : Byte)
      (hb : s.txData = some b) (hl : s.txLast = true) : TransitionRow s (s.emit (.txByte b true)).finishRequest
  | waitForPeer (hs : s.st = .send) (he : s.pins.txErr = false) (hr : s.pins.txReady = false) : TransitionRow s s
  | closed (hs : s.st = .closed) : TransitionRow s s

theorem acceptByte_cases {b : Byte} {last : Bool} {q : List (Byte × Bool)} {s t : State}
    (h : acceptByte b last q s = .next t) :
    s.rxCnt < s.cfg.bufCap ∧
      t = (({ s with rx := s.rx.write s.rxCnt b, rxCnt := s.rxCnt + 1, rxq := q } : State).emit
            (.rxByte b last)).goto (if last = true ∨ s.rxCnt + 1 = s.cfg.bufCap then .decode else .recv) := by
  by_cases hl : s.rxCnt < s.cfg.bufCap
  · simp only [acceptByte, State.storeRxByte_eq b hl, chunkEnds, Bool.or_eq_true, decide_eq_true_eq] at h
    exact ⟨hl, by simpa using h.symm⟩
  · simp [acceptByte, State.storeRxByte, hl] at h

theorem idleStep_row {s t : State} (hs : s.st = .idle) (h : idleStep s = .next t) : TransitionRow s t := by
  unfold idleStep at h
  split at h
  · rename_i he
    obtain rfl := by simpa using h.symm
    exact .readFailure (.inl hs) he
  · rename_i he
    rw [Bool.not_eq_true] at he
    cases hq : s.rxq with
    | cons x q =>
      obtain ⟨b, last⟩ := x
      rw [hq] at h
      obtain ⟨hlt, rfl⟩ := acceptByte_cases h
      exact .byteAccepted (.inl hs) he b last q hq hlt
    | nil =>
      simp only [hq] at h
      cases hf : s.pins.rxEof <;> simp only [hf] at h <;> obtain rfl := by simpa using h.symm
      · exact .waitForByte (.inl hs) he hq hf
      · exact .endBetweenRequests hs he hq hf

theorem recvStep_row {s t : State} (hs : s.st = .recv) (h : recvStep s = .next t) : TransitionRow s t := by
  unfold recvStep at h
  split at h
  · rename_i he
    obtain rfl := by simpa using h.symm
    exact .readFailure (.inr hs) he
  · rename_i he
    rw [Bool.not_eq_true] at he
    cases hq : s.rxq with
    | cons x q =>
      obtain ⟨b, last⟩ := x
      rw [hq] at h
      obtain ⟨hlt, rfl⟩ := acceptByte_cases h
      exact .byteAccepted (.inr hs) he b last q hq hlt
    | nil =>
      simp only [hq] at h
      cases hf : s.pins.rxEof <;> simp only [hf] at h <;> obtain rfl := by simpa using h.symm
      · exact .waitForByte (.inr hs) he hq hf
      · exact .endOfChunk hs he hq hf

theorem decodeStep_row {s t : State} (hs : s.st = .decode) (h : decodeStep s = .next t) : TransitionRow s t := by
  unfold decodeStep at h
  split at h
  · rename_i hn
    obtain rfl := by simpa using h.symm
    exact .frameTooShort hs hn
  · rename_i hn
    cases hu : s.unpack with
    | none => simp [hu] at h
    | some f =>
      cases he : fieldError s.cfg s.rxCnt f with
      | some e =>
        simp only [hu, he] at h
        obtain rfl := by simpa using h.symm
        exact .fieldsRejected hs (Nat.le_of_not_lt hn) f hu e he
      | none =>
        simp only [hu, he] at h
        obtain rfl := by simpa using h.symm
        exact .fieldsAccepted hs (Nat.le_of_not_lt hn) f hu he

theorem encodeStep_row {s t : State} (hs : s.st = .encode) (h : encodeStep s = .next t) : TransitionRow s t := by
  unfold encodeStep at h
  split at h
  · cases h
  · rename_i f hf
    by_cases hl : 1 + s.pdu.length ≤ maxLength
    · rw [buildAdu_eq f s.pdu hl] at h
      obtain rfl := by simpa using h.symm
      exact .encoded hs f hf hl
    · simp [buildAdu_none (Nat.lt_of_not_le hl)] at h

theorem sendStep_row {s t : State} (hs : s.st = .send) (h : sendStep s = .next t) : TransitionRow s t := by
  unfold sendStep at h
  split at h
  · rename_i he
    obtain rfl := by simpa using h.symm
    exact .writeFailure hs he
  · rename_i he
    rw [Bool.not_eq_true] at he
    split at h
    · rename_i hr
      cases hb : s.txData with
      | none => simp [hb] at h
      | some b =>
        cases hl : s.txLast <;> simp only [hb, hl] at h <;> obtain rfl := by simpa using h.symm
        · exact .byteWritten hs he hr b hb hl
        · exact .lastByteWritten hs he hr b hb hl
    · rename_i hr
      obtain rfl := by simpa using h.symm
      exact .waitForPeer hs he (by simpa using hr)

/-- A transition that answers is one row (R241). -/
theorem transition_row {s t : State} (h : transition s = .next t) : TransitionRow s t := by
  unfold transition at h
  split at h <;> rename_i hs
  · exact idleStep_row hs h
  · exact recvStep_row hs h
  · exact decodeStep_row hs h
  · unfold dispatchStep at h
    split at h
    · cases h
    · rename_i f hf
      obtain rfl := by simpa using h.symm
      exact .dispatched hs f hf
  · unfold execStep at h
    split at h
    · cases h
    · rename_i i hi
      exact .handled hs i hi t h
  · exact encodeStep_row hs h
  · exact sendStep_row hs h
  · obtain rfl := by simpa using h.symm
    exact .closed hs

end Sys2Proof.Machine
end

