-- ==== Sys2Proof/Laws/Run.lean ====
section
/-! SUPPORT. Runs of several steps: how they compose, what a run without inputs or without a reset does at each step. -/

namespace Sys2Proof.Machine

theorem runSteps_succ {s t : State} (k : Nat) (h : step s = .next t) : runSteps (k + 1) s = runSteps k t := by
  simp [runSteps, h]

theorem runSteps_trans {a : Nat} {s t : State} (b : Nat) (h : runSteps a s = .next t) :
    runSteps (a + b) s = runSteps b t := by
  induction a generalizing s with
  | zero =>
    obtain rfl : s = t := by simpa [runSteps] using h
    rw [Nat.zero_add]
  | succ a ih =>
    rw [Nat.add_right_comm]
    cases hs : step s with
    | next u =>
      rw [runSteps_succ _ hs] at h ⊢
      exact ih h
    | fault r => simp [runSteps, hs] at h
    | refused r => simp [runSteps, hs] at h

theorem State.NoReset.resetRequested {s : State} (h : s.NoReset) : s.resetRequested = false := by
  unfold State.resetRequested
  split
  · rfl
  · rename_i x xs hi
    have := h x (by rw [hi]; exact List.mem_cons_self)
    simp [this.1, this.2]

theorem State.NoReset.sample {s : State} (h : s.NoReset) : s.sample.NoReset := by
  unfold State.sample
  split
  · exact h
  · rename_i x xs hi
    exact fun y hy => h y (by rw [hi]; exact List.mem_cons_of_mem _ hy)

theorem State.NoReset.of_inputs {s t : State} (h : s.NoReset) (hi : t.inputs = s.inputs) : t.NoReset :=
  fun x hx => h x (hi ▸ hx)

theorem State.noReset_of_no_inputs {s : State} (h : s.inputs = []) : s.NoReset := fun x hx => by simp [h] at hx

/-- Without a reset and under legal straps a step is the transition of the sampled state. -/
theorem State.NoReset.step {s : State} (h : s.NoReset) (hc : cfgLegal s.cfg = true) :
    Machine.step s = transition s.sample := step_eq_transition h.resetRequested hc

/-- Sampling changes nothing the unpack reads. -/
@[simp] theorem State.sample_unpack (s : State) : s.sample.unpack = s.unpack := by
  simp [State.unpack, State.memReadByte, State.memReadWord]

@[simp] theorem State.sample_txData (s : State) : s.sample.txData = s.txData := by simp [State.txData]

theorem State.sample_holdsChunk {s : State} {bs : List Byte} : s.sample.HoldsChunk bs ↔ s.HoldsChunk bs := by
  simp [State.HoldsChunk]

/-! ### The store port over several steps -/

@[simp] theorem portWords_nil : portWords [] = [] := rfl

theorem portWords_cons (x : Stim) (xs : List Stim) :
    portWords (x :: xs) = (if x.pins.srWordValid then [x.pins.srWord] else []) ++ portWords xs := by
  unfold portWords
  rw [List.filterMap_cons]
  cases x.pins.srWordValid <;> rfl

theorem portWords_append (xs ys : List Stim) : portWords (xs ++ ys) = portWords xs ++ portWords ys :=
  List.filterMap_append

/-- A step of `EXEC` adds the word at the port in that step. -/
theorem State.sample_collectedWords {s : State} {x : Stim} {xs : List Stim} (h : s.inputs = x :: xs) :
    s.sample.collectedWords = s.srWords ++ portWords [x] := by
  rw [portWords_cons, portWords_nil, List.append_nil]
  simp only [State.collectedWords, State.sample, h]
  split
  · rfl
  · rw [List.append_nil]

/-- What `respond` asking the store says of the request that the chunk unpacks to. -/
theorem AsksStore.request {c : Cfg} {bs : List Byte} {f : Fields} {rest : List Byte} (h : AsksStore c bs)
    (hu : unpackBytes bs = some (f, rest)) :
    fieldError c bs.length f = none ∧ f.fc = 0x03 ∧ 1 ≤ f.qty.toNat ∧ f.qty.toNat ≤ 125 := by
  obtain ⟨-, g, _, hg, h⟩ := h
  obtain ⟨rfl, -⟩ := Prod.mk.inj (Option.some.inj (hu.symm.trans hg))
  exact h

theorem not_asksStore_of_placeholder {c : Cfg} (h : c.storeMode = .placeholder) (bs : List Byte) :
    ¬AsksStore c bs := fun hs => nomatch h.symm.trans hs.1

/-- `CLOSED` is left by a reset alone: any number of steps leaves the block and the trace as they are (R248). -/
theorem runSteps_closed (k : Nat) {s : State} (hs : s.st = .closed) (hc : cfgLegal s.cfg = true) (hn : s.NoReset) :
    ∃ t, runSteps k s = .next t ∧ SameBlock s t ∧ t.trace = s.trace := by
  induction k generalizing s with
  | zero => exact ⟨s, rfl, by simp [SameBlock], rfl⟩
  | succ k ih =>
    have h1 : step s = .next s.sample := by rw [hn.step hc]; simp [transition, hs]
    obtain ⟨t, ht, hb, htr⟩ := ih (s := s.sample) (by simpa using hs) (by simpa using hc) hn.sample
    refine ⟨t, by rw [runSteps_succ k h1, ht], ?_, by simpa using htr⟩
    simpa [SameBlock] using hb

end Sys2Proof.Machine
end

