-- ==== Sys2Proof/Laws/Transport.lean ====
section
/-! SUPPORT. What a change of the transport's waiting bytes and levels leaves alone, and that the operations of the four
states between the transport's two ends commute with it. -/

namespace Sys2Proof.Machine

section
variable (s : State) (q : List (Byte × Bool)) (eof rerr ready terr : Bool)

@[simp] theorem State.withTransport_st : (s.withTransport q eof rerr ready terr).st = s.st := rfl

@[simp] theorem State.withTransport_cfg : (s.withTransport q eof rerr ready terr).cfg = s.cfg := rfl

@[simp] theorem State.withTransport_rxCnt : (s.withTransport q eof rerr ready terr).rxCnt = s.rxCnt := rfl

@[simp] theorem State.withTransport_fields : (s.withTransport q eof rerr ready terr).fields = s.fields := rfl

@[simp] theorem State.withTransport_pdu : (s.withTransport q eof rerr ready terr).pdu = s.pdu := rfl

@[simp] theorem State.withTransport_disp : (s.withTransport q eof rerr ready terr).disp = s.disp := rfl

@[simp] theorem State.withTransport_srBusy : (s.withTransport q eof rerr ready terr).srBusy = s.srBusy := rfl

@[simp] theorem State.withTransport_srDone : (s.withTransport q eof rerr ready terr).pins.srDone = s.pins.srDone := rfl

@[simp] theorem State.withTransport_srOk : (s.withTransport q eof rerr ready terr).pins.srOk = s.pins.srOk := rfl

@[simp] theorem State.withTransport_unpack : (s.withTransport q eof rerr ready terr).unpack = s.unpack := rfl

@[simp] theorem State.withTransport_collectedWords :
    (s.withTransport q eof rerr ready terr).collectedWords = s.collectedWords := rfl

@[simp] theorem State.withTransport_currentRequest :
    (s.withTransport q eof rerr ready terr).currentRequest = s.currentRequest := rfl

theorem State.withTransport_requestStore (a n : Word) :
    (s.withTransport q eof rerr ready terr).requestStore a n =
      (s.requestStore a n).withTransport q eof rerr ready terr := by
  by_cases h : s.srBusy = true
  · simp [State.requestStore, h]
  · simp [State.requestStore, h]
    rfl

end

end Sys2Proof.Machine
end

