-- ==== Sys2Proof/Tests/Slice0.lean ====
section
/-! SUPPORT. The model's own tests, with expected values from the examples and vectors of spec/ (R114, R191 to R210,
95_test_vectors.md), and a witness for each statement that has hypotheses. -/

namespace Sys2Proof.Tests

open Sys2Proof Sys2Proof.Machine

/-! ### Ill-formed terms are refused -/

theorem test_wf_unk_unnamed : (Instr.unk 0x09 { }).WellFormed ∧ (Instr.unk 0x00 { }).WellFormed := by decide

theorem test_wf_unk_read_holding_refused : ¬ (Instr.unk 0x03 { }).WellFormed := by decide

theorem test_wf_unk_named_refused : ¬ (Instr.unk 0x06 { }).WellFormed ∧ ¬ (Instr.unk 0x18 { }).WellFormed := by decide

theorem test_decode_short : decode [0x00, 0x01, 0x00, 0x00, 0x00, 0x06, 0x01, 0x03, 0x00, 0x00, 0x00] =
    .error (.frameTooShort 11) := by decide

/-! ### The example frames of R191 to R210, scenario A and DE1, decoded -/

theorem test_decode_rc : decode [0x01, 0x01, 0x00, 0x00, 0x00, 0x06, 0x01, 0x01, 0x00, 0x00, 0x00, 0x03] =
    .ok (.rc { tid := 0x0101, uid := 0x01, addr := 0x0000, qty := 0x0003 }, []) := by decide

theorem test_decode_rdi : decode [0x01, 0x02, 0x00, 0x00, 0x00, 0x06, 0x02, 0x02, 0x00, 0x01, 0x00, 0x01] =
    .ok (.rdi { tid := 0x0102, uid := 0x02, addr := 0x0001, qty := 0x0001 }, []) := by decide

theorem test_decode_rhr : decode [0x01, 0x02, 0x03, 0x04, 0x05, 0x06, 0x07, 0x03, 0x09, 0x0A, 0x00, 0x02] =
    .ok (.rhr { tid := 0x0102, pid := 0x0304, len := 0x0506, uid := 0x07, addr := 0x090A, qty := 0x0002 }, []) := by
  decide

theorem test_decode_rir : decode [0x01, 0x03, 0x00, 0x00, 0x00, 0x06, 0x11, 0x04, 0x00, 0x10, 0x00, 0x02] =
    .ok (.rir { tid := 0x0103, uid := 0x11, addr := 0x0010, qty := 0x0002 }, []) := by decide

theorem test_decode_wsc : decode [0x01, 0x04, 0x00, 0x00, 0x00, 0x06, 0xFF, 0x05, 0x00, 0x6B, 0x00, 0x0A] =
    .ok (.wsc { tid := 0x0104, uid := 0xFF, addr := 0x006B, qty := 0x000A }, []) := by decide

theorem test_decode_wsr : decode [0x01, 0x05, 0x00, 0x00, 0x00, 0x06, 0x00, 0x06, 0xFF, 0xFF, 0xFF, 0x00] =
    .ok (.wsr { tid := 0x0105, uid := 0x00, addr := 0xFFFF, qty := 0xFF00 }, []) := by decide

theorem test_decode_res : decode [0x01, 0x06, 0x00, 0x00, 0x00, 0x06, 0x01, 0x07, 0x00, 0x00, 0x00, 0x03] =
    .ok (.res { tid := 0x0106, uid := 0x01, addr := 0x0000, qty := 0x0003 }, []) := by decide

theorem test_decode_diag : decode [0x01, 0x07, 0x00, 0x00, 0x00, 0x06, 0x02, 0x08, 0x00, 0x01, 0x00, 0x01] =
    .ok (.diag { tid := 0x0107, uid := 0x02, addr := 0x0001, qty := 0x0001 }, []) := by decide

theorem test_decode_gcec : decode [0x01, 0x08, 0x00, 0x00, 0x00, 0x06, 0x11, 0x0B, 0x00, 0x10, 0x00, 0x02] =
    .ok (.gcec { tid := 0x0108, uid := 0x11, addr := 0x0010, qty := 0x0002 }, []) := by decide

theorem test_decode_gcel : decode [0x01, 0x09, 0x00, 0x00, 0x00, 0x06, 0xFF, 0x0C, 0x00, 0x6B, 0x00, 0x0A] =
    .ok (.gcel { tid := 0x0109, uid := 0xFF, addr := 0x006B, qty := 0x000A }, []) := by decide

theorem test_decode_wmc : decode [0x01, 0x0A, 0x00, 0x00, 0x00, 0x06, 0x00, 0x0F, 0xFF, 0xFF, 0xFF, 0x00] =
    .ok (.wmc { tid := 0x010A, uid := 0x00, addr := 0xFFFF, qty := 0xFF00 }, []) := by decide

theorem test_decode_wmr : decode [0x12, 0x34, 0xAB, 0xCD, 0x00, 0x06, 0xFF, 0x10, 0x00, 0x01, 0x00, 0x02] =
    .ok (.wmr { tid := 0x1234, pid := 0xABCD, uid := 0xFF, addr := 0x0001, qty := 0x0002 }, []) := by decide

theorem test_decode_rsid : decode [0x01, 0x0C, 0x00, 0x00, 0x00, 0x06, 0x02, 0x11, 0x00, 0x01, 0x00, 0x01] =
    .ok (.rsid { tid := 0x010C, uid := 0x02, addr := 0x0001, qty := 0x0001 }, []) := by decide

theorem test_decode_rfr : decode [0x01, 0x0D, 0x00, 0x00, 0x00, 0x06, 0x11, 0x14, 0x00, 0x10, 0x00, 0x02] =
    .ok (.rfr { tid := 0x010D, uid := 0x11, addr := 0x0010, qty := 0x0002 }, []) := by decide

theorem test_decode_wfr : decode [0x01, 0x0E, 0x00, 0x00, 0x00, 0x06, 0xFF, 0x15, 0x00, 0x6B, 0x00, 0x0A] =
    .ok (.wfr { tid := 0x010E, uid := 0xFF, addr := 0x006B, qty := 0x000A }, []) := by decide

theorem test_decode_mwr : decode [0x01, 0x0F, 0x00, 0x00, 0x00, 0x06, 0x00, 0x16, 0xFF, 0xFF, 0xFF, 0x00] =
    .ok (.mwr { tid := 0x010F, uid := 0x00, addr := 0xFFFF, qty := 0xFF00 }, []) := by decide

theorem test_decode_rwmr : decode [0x01, 0x10, 0x00, 0x00, 0x00, 0x06, 0x01, 0x17, 0x00, 0x00, 0x00, 0x03] =
    .ok (.rwmr { tid := 0x0110, uid := 0x01, addr := 0x0000, qty := 0x0003 }, []) := by decide

theorem test_decode_rfq : decode [0x01, 0x11, 0x00, 0x00, 0x00, 0x06, 0x02, 0x18, 0x00, 0x01, 0x00, 0x01] =
    .ok (.rfq { tid := 0x0111, uid := 0x02, addr := 0x0001, qty := 0x0001 }, []) := by decide

theorem test_decode_unk : decode [0x00, 0x01, 0x00, 0x00, 0x00, 0x06, 0x01, 0x83, 0x00, 0x00, 0x00, 0x03, 0xDE, 0xAD] =
    .ok (.unk 0x83 { qty := 0x0003 }, [0xDE, 0xAD]) := by decide

/-! ### One step of each handler: `pdu`, `exc` and `st` -/

/-- What a handler writes. -/
def written (o : Host.Outcome State Fault Refusal) : Option (List Byte × Byte × St) :=
  match o with
  | .next t => some (t.pdu, t.exc, t.st)
  | .fault _ => none
  | .refused _ => none

/-- The step that runs the request of a 96-bit string, from reset. -/
def ran (w : Nat) : Option (List Byte × Byte × St) := written (step (State.reset.withFetchWord 96 w))

theorem test_step_rc : ran 0x010100000006010100000003 = some ([0x81, 0x01], 0x01, .encode) := by decide

theorem test_step_rdi : ran 0x010200000006020200010001 = some ([0x82, 0x01], 0x01, .encode) := by decide

theorem test_step_rhr : ran 0x000100000006010300000003 =
    some ([0x03, 0x06, 0x12, 0x34, 0x12, 0x34, 0x12, 0x34], 0x00, .encode) := by decide

theorem test_step_rir : ran 0x010300000006110400100002 = some ([0x84, 0x01], 0x01, .encode) := by decide

theorem test_step_wsc : ran 0x010400000006FF05006B000A = some ([0x85, 0x01], 0x01, .encode) := by decide

theorem test_step_wsr : ran 0x0105000000060006FFFFFF00 = some ([0x86, 0x01], 0x01, .encode) := by decide

theorem test_step_res : ran 0x010600000006010700000003 = some ([0x87, 0x01], 0x01, .encode) := by decide

theorem test_step_diag : ran 0x010700000006020800010001 = some ([0x88, 0x01], 0x01, .encode) := by decide

theorem test_step_gcec : ran 0x010800000006110B00100002 = some ([0x8B, 0x01], 0x01, .encode) := by decide

theorem test_step_gcel : ran 0x010900000006FF0C006B000A = some ([0x8C, 0x01], 0x01, .encode) := by decide

theorem test_step_wmc : ran 0x010A00000006000FFFFFFF00 = some ([0x8F, 0x01], 0x01, .encode) := by decide

theorem test_step_wmr : ran 0x010B00000006011000000003 = some ([0x90, 0x01], 0x01, .encode) := by decide

theorem test_step_rsid : ran 0x010C00000006021100010001 = some ([0x91, 0x01], 0x01, .encode) := by decide

theorem test_step_rfr : ran 0x010D00000006111400100002 = some ([0x94, 0x01], 0x01, .encode) := by decide

theorem test_step_wfr : ran 0x010E00000006FF15006B000A = some ([0x95, 0x01], 0x01, .encode) := by decide

theorem test_step_mwr : ran 0x010F000000060016FFFFFF00 = some ([0x96, 0x01], 0x01, .encode) := by decide

theorem test_step_rwmr : ran 0x011000000006011700000003 = some ([0x97, 0x01], 0x01, .encode) := by decide

theorem test_step_rfq : ran 0x011100000006021800010001 = some ([0x98, 0x01], 0x01, .encode) := by decide

theorem test_step_unk : ran 0x000100000006010900000003 = some ([0x89, 0x01], 0x01, .encode) := by decide

/-- The table word of a row, as the file gives it: the match value and 96 bits (R102). -/
theorem test_table_words : decodeTableWord 96 0x000000000000000300000000 = some (.rhr { tid := 0, len := 0, uid := 0 }) ∧
    decodeTableWord 96 0x000000000000001800000000 = some (.rfq { tid := 0, len := 0, uid := 0 }) ∧
    decodeTableWord 96 0 = some (.unk 0x00 { tid := 0, len := 0, uid := 0 }) := by decide

/-! ### Vectors of 95_test_vectors.md -/

/-- The example store of §2.6: registers 0 to 15, register `a` holding `0x0100 + 3 * a`. -/
def exampleStore (start count : Word) : Option (List Word) :=
  if start.toNat + count.toNat ≤ 16 then
    some ((List.range count.toNat).map fun k => BitVec.ofNat 16 (0x0100 + 3 * (start.toNat + k)))
  else none

/-- No store. -/
def noStore (_ _ : Word) : Option (List Word) := none

theorem test_scenario_a : respond { } noStore [0x00, 0x01, 0x00, 0x00, 0x00, 0x06, 0x01, 0x03, 0x00, 0x00, 0x00, 0x03] =
    .reply [0x00, 0x01, 0x00, 0x00, 0x00, 0x09, 0x01, 0x03, 0x06, 0x12, 0x34, 0x12, 0x34, 0x12, 0x34] := by decide

theorem test_scenario_b : respond { } noStore [0x00, 0x01, 0x00, 0x00, 0x00, 0x06, 0x01, 0x06, 0x00, 0x00, 0x00, 0x03] =
    .reply [0x00, 0x01, 0x00, 0x00, 0x00, 0x03, 0x01, 0x86, 0x01] := by decide

theorem test_scenario_c : respond { } noStore [0x00, 0x01, 0x00, 0x00, 0x00, 0x02, 0x01, 0x07] =
    .drop .frameTooShort := by decide

/-- CK3 and CK8: the length check counts the bytes received; the protocol check comes first. -/
theorem test_checks : respond { lenCheck := true } noStore
      [0x00, 0x01, 0x00, 0x00, 0x00, 0x07, 0x01, 0x03, 0x00, 0x00, 0x00, 0x01] = .drop .frameTruncated ∧
    respond { lenCheck := true } noStore
      [0x00, 0x01, 0x00, 0x00, 0x00, 0x07, 0x01, 0x03, 0x00, 0x00, 0x00, 0x01, 0x99] =
        .reply [0x00, 0x01, 0x00, 0x00, 0x00, 0x05, 0x01, 0x03, 0x02, 0x12, 0x34] ∧
    respond { lenCheck := true, pidCheck := true } noStore
      [0x00, 0x01, 0x00, 0x01, 0x00, 0x05, 0x01, 0x03, 0x00, 0x00, 0x00, 0x01] = .drop .unsupportedProtocol := by
  decide

/-- §2.5: quantity 0 and 32767 under the two policies. -/
theorem test_quantity_policies : respond { } noStore
      [0x00, 0x01, 0x00, 0x00, 0x00, 0x06, 0x01, 0x03, 0x00, 0x00, 0x00, 0x00] =
        .reply [0x00, 0x01, 0x00, 0x00, 0x00, 0x03, 0x01, 0x83, 0x03] ∧
    respond { qtyPolicy := .reference } noStore
      [0x00, 0x01, 0x00, 0x00, 0x00, 0x06, 0x01, 0x03, 0x00, 0x00, 0x00, 0x00] =
        .reply [0x00, 0x01, 0x00, 0x00, 0x00, 0x03, 0x01, 0x03, 0x00] ∧
    respond { qtyPolicy := .reference } noStore
      [0x00, 0x01, 0x00, 0x00, 0x00, 0x06, 0x01, 0x03, 0x00, 0x00, 0x7F, 0xFF] = .refuse := by decide

/-- ST2 and ST3. -/
theorem test_store_vectors : respond { storeMode := .capability } exampleStore
      [0x00, 0x07, 0x00, 0x00, 0x00, 0x06, 0x11, 0x03, 0x00, 0x0E, 0x00, 0x02] =
        .reply [0x00, 0x07, 0x00, 0x00, 0x00, 0x07, 0x11, 0x03, 0x04, 0x01, 0x2A, 0x01, 0x2D] ∧
    respond { storeMode := .capability } exampleStore
      [0x00, 0x07, 0x00, 0x00, 0x00, 0x06, 0x11, 0x03, 0x00, 0x0F, 0x00, 0x02] =
        .reply [0x00, 0x07, 0x00, 0x00, 0x00, 0x03, 0x11, 0x83, 0x02] := by decide

/-! ### States for the witnesses -/

/-- The request of scenario A. -/
def frameA : List Byte := [0x00, 0x01, 0x00, 0x00, 0x00, 0x06, 0x01, 0x03, 0x00, 0x00, 0x00, 0x03]

/-- A Read Holding Registers request for `qty` registers from 0. -/
def readOf (qty : Word) : Fields := { tid := 1, pid := 0, len := 6, uid := 1, fc := 0x03, addr := 0, qty := qty }

/-- A Write Single Register request, scenario B. -/
def writeOne : Fields := { tid := 1, pid := 0, len := 6, uid := 1, fc := 0x06, addr := 0, qty := 3 }

/-- Reset under other straps. -/
def resetWith (c : Cfg) : State := { State.reset with cfg := c, pins := { straps := c, txReady := true } }

/-- `IDLE` with a chunk waiting. -/
def idleWith (c : Cfg) (frame : List Byte) : State := { resetWith c with rxq := chunkOf frame }

/-- `RECV` after one byte of a chunk. -/
def recvWith (c : Cfg) : State := { resetWith c with st := .recv, rx := [(0, 0x00)], rxCnt := 1 }

/-- `DECODE` with a chunk received. -/
def decodeWith (c : Cfg) (frame : List Byte) : State :=
  { resetWith c with st := .decode, rx := Memory.ofBytes 0 frame, rxCnt := frame.length }

/-- `DISPATCH` with a request unpacked. -/
def dispatchWith (c : Cfg) (f : Fields) : State := { decodeWith c f.bytes with st := .dispatch, fields := some f }

/-- `EXEC` with a request classified. -/
def execWith (c : Cfg) (f : Fields) : State := (resetWith c).placeRequest f

/-- `ENCODE` with a reply PDU. -/
def encodeWith (c : Cfg) (f : Fields) (pdu : List Byte) (exc : Byte) : State := (execWith c f).reply pdu exc

/-- `SEND` with the response built and nothing written. -/
def sendWith (c : Cfg) (f : Fields) (pdu : List Byte) (exc : Byte) : State :=
  { encodeWith c f pdu exc with st := .send, adu := respondAdu f pdu, txLen := 7 + pdu.length }

/-- `CLOSED` after a drop. -/
def closedState : State := { State.reset with st := .closed, err := .txFail }

/-- `EXEC` at the store's port, with the port's levels. -/
def storePort (qty : Word) (words : List Word) (pins : Pins) : State :=
  { execWith { storeMode := .capability } (readOf qty) with srBusy := true, srWords := words, pins := pins }

/-- Surroundings that deliver a reset. -/
def resetStim : Stim := { rst := true, pins := { straps := Cfg.referenceProfile } }

theorem idleWith_inv (c : Cfg) (frame : List Byte) : (idleWith c frame).Inv := by
  simp [State.Inv, idleWith, resetWith, State.reset, State.Fresh, State.HoldsChunk, State.NoResponse, State.NoStoreRead,
    Memory.ofBytes]

theorem decodeWith_inv (c : Cfg) (frame : List Byte) (h0 : 0 < frame.length) (h : frame.length ≤ c.bufCap) :
    (decodeWith c frame).Inv := by
  simpa [State.Inv, decodeWith, resetWith, State.reset, State.HoldsChunk, State.NoResponse, State.NoStoreRead, h0, h]
    using ⟨frame, rfl, rfl⟩

theorem holdsRequest {s : State} {f : Fields} (hf : s.fields = some f) (hr : s.rx = Memory.ofBytes 0 f.bytes)
    (hn : s.rxCnt = 12) (hc : 12 ≤ s.cfg.bufCap) (he : fieldError s.cfg 12 f = none)
    (hu : unpackBytes f.bytes = some (f, [])) : s.HoldsRequest f :=
  ⟨hf, hn ▸ hc, hn ▸ he, f.bytes, [], ⟨hr, hn⟩, hu⟩

theorem execWith_inv (c : Cfg) (f : Fields) (hc : 12 ≤ c.bufCap) (he : fieldError c 12 f = none)
    (hu : unpackBytes f.bytes = some (f, [])) : (execWith c f).Inv :=
  ⟨rfl, ⟨rfl, rfl, rfl, rfl, rfl⟩, fun _ => rfl, f, holdsRequest rfl rfl rfl hc he hu, rfl, fun h => nomatch h⟩

theorem sendWith_inv (c : Cfg) (f : Fields) (pdu : List Byte) (exc : Byte) (hc : 12 ≤ c.bufCap)
    (he : fieldError c 12 f = none) (hu : unpackBytes f.bytes = some (f, [])) (hp : ResponsePdu c f pdu exc) :
    (sendWith c f pdu exc).Inv := by
  refine ⟨rfl, ?_, ?_, ⟨rfl, rfl⟩, f, holdsRequest rfl rfl rfl hc he hu, rfl, hp, rfl⟩
  · simp only [sendWith, encodeWith, execWith, State.reply, State.placeRequest, resetWith, State.reset]
    omega
  · simp [sendWith, respondAdu, be16]
    omega

/-- The response to a read of one register. -/
def onePdu : List Byte := [0x03, 0x02, 0x12, 0x34]

theorem onePdu_response : ResponsePdu { } (readOf 1) onePdu 0x00 :=
  .inl ⟨rfl, rfl, rfl, rfl, [0x1234], rfl, by decide, fun _ => by decide⟩

theorem illegal_response : ResponsePdu { } writeOne [0x86, 0x01] 0x01 := .inr (.inl ⟨rfl, by decide, rfl⟩)

/-- The store's exception is a response to a read that passed the quantity check. -/
theorem address_response : ResponsePdu { storeMode := .capability } (readOf 2) [0x83, 0x02] 0x02 :=
  .inr (.inr (.inl ⟨rfl, rfl, by decide, rfl, rfl⟩))

/-- The value exception is a response to a read of no register. -/
theorem value_response : ResponsePdu { } (readOf 0) [0x83, 0x03] 0x03 :=
  .inr (.inr (.inr ⟨rfl, rfl, by decide, rfl⟩))

/-! ### Witnesses: the hypotheses of each statement can hold together -/

theorem test_witness_DecodeInvertsEncode : (Instr.rhr { }).WellFormed ∧ (Instr.unk 0xFF { }).WellFormed := by decide

theorem test_witness_EncodeInvertsDecode : decode frameA = .ok (.rhr { qty := 3 }, []) := by decide

theorem test_witness_ExactlyShortFramesRejected :
    ([] : List Byte).length < 12 ∧ (frameA.take 11).length < 12 ∧ 12 ≤ frameA.length := by decide

theorem test_witness_FunctionCodeAloneSelects :
    (readOf 1).fc = 0x03 ∧ writeOne.fc ≠ 0x03 ∧ (readOf 9).fc = (readOf 1).fc := by decide

theorem test_witness_LogNamesAreTheTable :
    (0x00 : Byte) ∉ namedCodes ∧ (0x09 : Byte) ∉ namedCodes ∧ (0x19 : Byte) ∉ namedCodes ∧ (0xFF : Byte) ∉ namedCodes := by
  decide

theorem test_witness_IllegalFunctionUnnamedCodes :
    (∃ fc r, ({ writeOne with fc := 0x7F } : Fields).toInstr = .unk fc r) ∧ 0x80 ≤ (0x80 : Byte).toNat ∧
      0x80 ≤ (0xFF : Byte).toNat ∧ ({ writeOne with fc := 0x18 } : Fields).toInstr.mnemonic = "RFQ" ∧
      ({ writeOne with fc := 0x19 } : Fields).toInstr.mnemonic = "UNK" := ⟨⟨0x7F, { qty := 3 }, by decide⟩, by decide⟩

theorem test_witness_IllegalReplyIgnoresOperands :
    unpackBytes writeOne.bytes = some (writeOne, []) ∧
      unpackBytes (({ writeOne with len := 5, addr := 9, qty := 0 } : Fields).bytes ++ [0xAA]) =
        some ({ writeOne with len := 5, addr := 9, qty := 0 }, [0xAA]) ∧
      writeOne.fc ≠ 0x03 ∧ fieldError { } 12 writeOne = none ∧
      fieldError { } 13 { writeOne with len := 5, addr := 9, qty := 0 } = none := by decide

theorem test_witness_RhrQuantityOutOfRange :
    (execWith { } (readOf 0)).cfg.qtyPolicy = .strict ∧ (0 : Word).toNat = 0 ∧ 125 < (126 : Word).toNat ∧
      125 < (0xFFFF : Word).toNat := by decide

theorem test_witness_RhrPlaceholderReply :
    (execWith { } (readOf 1)).cfg.storeMode = .placeholder ∧ (execWith { } (readOf 1)).cfg.qtyPolicy = .strict ∧
      1 ≤ (1 : Word).toNat ∧ (125 : Word).toNat ≤ 125 ∧
      (execWith Cfg.referenceProfile (readOf 0)).cfg.qtyPolicy = .reference ∧
      (execWith Cfg.referenceProfile (readOf 0)).cfg.storeMode = .placeholder ∧ (0 : Word).toNat ≤ 32766 ∧
      (32766 : Word).toNat ≤ 32766 := by decide

theorem test_witness_RhrReferenceDomain :
    (execWith Cfg.referenceProfile (readOf 32767)).cfg.qtyPolicy = .reference ∧ 32767 ≤ (32767 : Word).toNat ∧
      (execWith Cfg.referenceProfile (readOf 32766)).cfg.storeMode = .placeholder ∧ (32766 : Word).toNat ≤ 32766 ∧
      (execWith { } (readOf 32767)).cfg.qtyPolicy = .strict := by decide

theorem test_witness_ByteCountTruncates : (127 : Word).toNat ≤ 127 ∧ (128 : Word) = 128 := by decide

theorem test_witness_RhrStoreAnswersOk :
    let s := storePort 2 [0x0100] { srDone := true, srOk := true, srWordValid := true, srWord := 0x0103 }
    s.cfg.qtyPolicy = .strict ∧ s.cfg.storeMode = .capability ∧ 1 ≤ (2 : Word).toNat ∧ (2 : Word).toNat ≤ 125 ∧
      s.pins.srDone = true ∧ s.pins.srOk = true ∧ s.collectedWords.length = (2 : Word).toNat := by decide

theorem test_witness_RhrStoreAnswersErr :
    let s := storePort 125 [] { srDone := true }
    s.cfg.qtyPolicy = .strict ∧ s.cfg.storeMode = .capability ∧ 1 ≤ (125 : Word).toNat ∧ (125 : Word).toNat ≤ 125 ∧
      s.pins.srDone = true ∧ s.pins.srOk = false := by decide

theorem test_witness_RhrStoreWaitsOrBreaksContract :
    let s := storePort 1 [] { srWordValid := true, srWord := 7 }
    let u := storePort 1 [5] { srDone := true, srOk := true, srWordValid := true, srWord := 7 }
    s.cfg.qtyPolicy = .strict ∧ s.cfg.storeMode = .capability ∧ s.pins.srDone = false ∧ u.pins.srDone = true ∧
      u.pins.srOk = true ∧ u.collectedWords.length ≠ (1 : Word).toNat := by decide

theorem test_witness_StoreReadIssuedOnce :
    (∃ t, exec (.rc { }) (execWith { } writeOne) = .next t ∧ t.storeReads = []) ∧
      ∃ t, exec (.rhr { addr := 7, qty := 2 }) (execWith { storeMode := .capability } (readOf 2)) = .next t ∧
        t.storeReads = [(7, 2)] ∧ t.srBusy = true := ⟨⟨_, rfl, by decide⟩, ⟨_, rfl, by decide⟩⟩

theorem test_witness_HandlerFrame :
    (∃ t, exec (.rhr { qty := 3 }) (execWith { } (readOf 3)) = .next t) ∧ (execWith { } (readOf 3)).st = .exec ∧
      (∃ t, exec (.wsr { qty := 3 }) (execWith { } writeOne) = .next t) ∧ ∀ r, Instr.wsr { qty := 3 } ≠ .rhr r :=
  ⟨⟨_, rfl⟩, rfl, ⟨_, rfl⟩, fun _ => nofun⟩

theorem test_witness_StepIsResetOrTransition :
    ({ State.reset with inputs := [resetStim] } : State).resetRequested = true ∧
      State.reset.resetRequested = false ∧ 12 ≤ (resetWith { bufCap := 12 }).cfg.bufCap ∧
      ¬((resetWith { bufCap := 12 }).cfg.qtyPolicy = .reference ∧
        (resetWith { bufCap := 12 }).cfg.storeMode = .capability) ∧
      (resetWith { bufCap := 11 }).cfg.bufCap < 12 ∧
      (resetWith { qtyPolicy := .reference, storeMode := .capability }).cfg.qtyPolicy = .reference := by decide

theorem test_witness_StepRunsDecodedRequest :
    (execWith { } (readOf 3)).Inv ∧ (execWith { } (readOf 3)).st = .exec ∧
      (execWith { } (readOf 3)).resetRequested = false ∧ cfgLegal (execWith { } (readOf 3)).cfg = true ∧
      (execWith { } (readOf 3)).rx.firstBytes (execWith { } (readOf 3)).rxCnt = some frameA ∧
      decode frameA = .ok (.rhr { qty := 3 }, []) :=
  ⟨execWith_inv _ _ (by decide) (by decide) (by decide), by decide⟩

theorem test_witness_ResetGivesResetValues :
    ({ closedState with inputs := [resetStim] } : State).inputs = [resetStim] ∧ resetStim.rst = true ∧
      ({ connOpen := true } : Stim).connOpen = true := by decide

theorem test_witness_ReadFailureEndsConnection :
    let s := { recvWith { } with pins := { rxErr := true } }
    let u := { idleWith { } frameA with pins := { rxErr := true } }
    s.st = .recv ∧ s.pins.rxErr = true ∧ u.st = .idle ∧ u.pins.rxErr = true := by decide

theorem test_witness_EndOfStreamBetweenRequests :
    let s := { resetWith { } with pins := { rxEof := true } }
    s.st = .idle ∧ s.pins.rxErr = false ∧ s.rxq = [] ∧ s.pins.rxEof = true := by decide

theorem test_witness_ChunkBytesAndChunkEnd :
    let s := { recvWith { bufCap := 12 } with rxCnt := 11, rxq := [(0x03, false)] }
    let u := { recvWith { } with pins := { rxEof := true } }
    (s.st = .recv ∧ s.pins.rxErr = false ∧ s.rxq = [(0x03, false)] ∧ s.rxCnt < s.cfg.bufCap ∧
        s.rxCnt + 1 = s.cfg.bufCap) ∧
      (idleWith { } [0xAB]).rxq = [(0xAB, true)] ∧
      (u.rxq = [] ∧ u.st = .recv ∧ u.pins.rxEof = true ∧ u.pins.rxErr = false) ∧
      ((recvWith { }).rxq = [] ∧ (recvWith { }).pins.rxEof = false ∧ (recvWith { }).pins.rxErr = false) := by decide

theorem test_witness_ShortFrameDropped :
    (decodeWith { } (frameA.take 11)).st = .decode ∧ (decodeWith { } (frameA.take 11)).rxCnt < 12 := by decide

/-- With both checks on: protocol id 1, `LEN` 5, `LEN` 7 of a 12-byte chunk, and `LEN` 6, which passes (CK1 to CK3). -/
theorem test_witness_DecodeUnpacksLogsChecks :
    let c : Cfg := { pidCheck := true, lenCheck := true }
    (decodeWith c frameA).st = .decode ∧ (decodeWith c frameA).HoldsChunk
      (0x00 :: 0x01 :: 0x00 :: 0x00 :: 0x00 :: 0x06 :: 0x01 :: 0x03 :: 0x00 :: 0x00 :: 0x00 :: 0x03 :: []) ∧
      ({ readOf 1 with pid := 1 } : Fields).pid ≠ 0 ∧ ({ readOf 1 with len := 5 } : Fields).len.toNat < 6 ∧
      12 + ([] : List Byte).length < 6 + ({ readOf 1 with len := 7 } : Fields).len.toNat ∧
      ¬12 + ([] : List Byte).length < 6 + (readOf 1).len.toNat :=
  ⟨rfl, ⟨rfl, rfl⟩, by decide⟩

/-- CK1, CK2 and CK3 through one step: which drop the checks give, and that `RX` is emptied (R270). -/
theorem test_decode_checks :
    (∃ t, step (decodeWith { pidCheck := true, lenCheck := true } ({ readOf 1 with pid := 1, len := 5 } : Fields).bytes) =
        .next t ∧ t.err = .unsupportedProtocol ∧ t.rx = [] ∧ t.rxCnt = 12) ∧
      (∃ t, step (decodeWith { lenCheck := true } ({ readOf 1 with len := 5 } : Fields).bytes) = .next t ∧
        t.err = .frameTooShort) ∧
      ∃ t, step (decodeWith { lenCheck := true } ({ readOf 1 with len := 7 } : Fields).bytes) = .next t ∧
        t.err = .frameTruncated := ⟨⟨_, rfl, by decide⟩, ⟨_, rfl, by decide⟩, ⟨_, rfl, by decide⟩⟩

theorem test_witness_DispatchClassifies :
    (dispatchWith { } (readOf 1)).st = .dispatch ∧ (dispatchWith { } (readOf 1)).fields = some (readOf 1) ∧
      (dispatchWith { } writeOne).fields = some writeOne := by decide

theorem test_witness_EncodeBuildsAdu :
    let s := encodeWith { } writeOne [0x86, 0x01] 0x01
    let u := encodeWith { } writeOne (List.replicate 65534 0x00) 0x00
    s.st = .encode ∧ s.fields = some writeOne ∧ 1 + s.pdu.length ≤ 65535 ∧ 1 + u.pdu.length ≤ 65535 := by
  refine ⟨rfl, rfl, by decide, ?_⟩
  have h : ∀ l, (encodeWith { } writeOne l 0x00).pdu = l := fun _ => rfl
  rw [h, List.length_replicate]

theorem test_witness_WriteFailureEndsConnection :
    let s := { sendWith { } (readOf 1) onePdu 0x00 with pins := { txErr := true } }
    s.st = .send ∧ s.pins.txErr = true := by decide

theorem test_witness_SendOffersEachByte :
    let s := sendWith { } (readOf 1) onePdu 0x00
    let u := { s with pins := { } }
    s.st = .send ∧ s.pins.txErr = false ∧ s.pins.txReady = true ∧ s.txCnt + 1 < s.txLen ∧ s.adu[s.txCnt]? = some 0x00 ∧
      u.pins.txReady = false := by decide

theorem test_witness_RequestEndReinitialises :
    let s := { sendWith { } (readOf 1) onePdu 0x00 with txCnt := 10 }
    (s.st = .send ∧ s.pins.txErr = false ∧ s.pins.txReady = true ∧ s.txCnt + 1 = s.txLen ∧
        s.adu[s.txCnt]? = some 0x34) ∧
      ∃ t, transition (decodeWith { } [0xAB]) = .next t ∧ t.err ≠ (decodeWith { } [0xAB]).err :=
  ⟨by decide, _, rfl, by decide⟩

theorem test_witness_ClosedOnlyResetLeaves :
    closedState.st = .closed ∧ closedState.resetRequested = false ∧ cfgLegal closedState.cfg = true := by decide

/-- For every statement whose hypotheses are a step that answers and no reset. -/
theorem test_witness_steps_answer :
    (∃ t, step (idleWith { } frameA) = .next t ∧ (idleWith { } frameA).resetRequested = false) ∧
      (∃ t, step (decodeWith { } frameA) = .next t ∧ t.fields = (decodeWith { } frameA).unpack ∧
        (decodeWith { } frameA).logPort ≠ none) ∧
      (∃ t, step { decodeWith { } frameA with inputs := [resetStim] } = .next t ∧ t.logRecords = [] ∧
        ({ decodeWith { } frameA with inputs := [resetStim] } : State).logPort = none) ∧
      (∃ t, step (sendWith { } (readOf 1) onePdu 0x00) = .next t ∧ t.bytesWritten = [0x00]) :=
  ⟨⟨_, rfl, rfl⟩, ⟨_, rfl, by decide⟩, ⟨_, rfl, by decide⟩, ⟨_, rfl, by decide⟩⟩

theorem test_witness_OnlyResetChangesCfgOrClearsErr :
    ∃ t, step closedState = .next t ∧ closedState.resetRequested = false ∧ closedState.err ≠ .none :=
  ⟨_, rfl, by decide⟩

theorem test_witness_NoByteTakenWhileRequestInHand :
    let s := { execWith { } (readOf 3) with rxq := chunkOf frameA }
    ∃ t, step s = .next t ∧ s.resetRequested = false ∧ s.rxReady = false := ⟨_, rfl, by decide⟩

theorem test_witness_TransportNotLookedAtInside :
    (∃ t, transition (encodeWith { } writeOne [0x86, 0x01] 0x01) = .next t) ∧
      transition (execWith Cfg.referenceProfile (readOf 32767)) = .refused .quantityBeyondLengthField ∧
      (execWith Cfg.referenceProfile (readOf 32767)).st = .exec := ⟨⟨_, rfl⟩, rfl, rfl⟩

theorem test_witness_StepKeepsInvariant :
    (sendWith { } (readOf 1) onePdu 0x00).Inv ∧ (∃ t, step (sendWith { } (readOf 1) onePdu 0x00) = .next t) ∧
      (decodeWith { } (frameA.take 11)).Inv ∧
      ∃ t, step (decodeWith { } (frameA.take 11)) = .next t ∧ t.st = .closed ∧ t.rx = [] :=
  ⟨sendWith_inv _ _ _ _ (by decide) (by decide) (by decide) onePdu_response, ⟨_, rfl⟩,
    decodeWith_inv _ _ (by decide) (by decide), _, rfl, by decide⟩

theorem test_witness_StepKeepsMemoryCanonical :
    (recvWith { }).rx.wf ∧ ∃ t, step { recvWith { } with rxq := chunkOf frameA } = .next t := ⟨by decide, _, rfl⟩

theorem test_witness_InvariantExcludesFaults :
    (execWith Cfg.referenceProfile (readOf 32767)).Inv ∧
      step (execWith Cfg.referenceProfile (readOf 32767)) = .refused .quantityBeyondLengthField ∧
      cfgLegal Cfg.referenceProfile = true :=
  ⟨execWith_inv _ _ (by decide) (by decide) (by decide), rfl, by decide⟩

theorem test_witness_SuccessResponseShape :
    let s := sendWith { } (readOf 1) onePdu 0x00
    s.Inv ∧ s.st = .send ∧ s.fields = some (readOf 1) ∧ 1 ≤ (readOf 1).qty.toNat ∧ (readOf 1).qty.toNat ≤ 125 ∧
      s.exc = 0x00 ∧ (readOf 1).fc = 0x03 ∧ s.cfg.storeMode = .placeholder ∧ s.exc ≠ 0x02 :=
  ⟨sendWith_inv _ _ _ _ (by decide) (by decide) (by decide) onePdu_response, by decide⟩

theorem test_witness_UnrecognisedResponseShape :
    let s := sendWith { } writeOne [0x86, 0x01] 0x01
    s.Inv ∧ s.st = .send ∧ s.fields = some writeOne ∧ writeOne.fc ≠ 0x03 :=
  ⟨sendWith_inv _ _ _ _ (by decide) (by decide) (by decide) illegal_response, by decide⟩

theorem test_witness_StrictResponseSizes :
    let s := sendWith { } (readOf 0) [0x83, 0x03] 0x03
    let u := sendWith { storeMode := .capability } (readOf 2) [0x83, 0x02] 0x02
    s.Inv ∧ u.Inv ∧ s.st = .send ∧ u.st = .send ∧ s.cfg.qtyPolicy = .strict ∧ s.exc = 0x03 ∧ u.exc = 0x02 ∧
      s.fields = some (readOf 0) ∧ u.fields = some (readOf 2) :=
  ⟨sendWith_inv _ _ _ _ (by decide) (by decide) (by decide) value_response,
    sendWith_inv _ _ _ _ (by decide) (by decide) (by decide) address_response, by decide⟩

/-- The quantities where the two causes meet: 0x03 at 126 (R273), 0x02 at 1 and at 125 (R274). -/
theorem test_witness_StrictResponseSizes_bounds :
    (sendWith { } (readOf 126) [0x83, 0x03] 0x03).Inv ∧
      (sendWith { storeMode := .capability } (readOf 1) [0x83, 0x02] 0x02).Inv ∧
      (sendWith { storeMode := .capability } (readOf 125) [0x83, 0x02] 0x02).Inv :=
  ⟨sendWith_inv _ _ _ _ (by decide) (by decide) (by decide) (.inr (.inr (.inr ⟨rfl, rfl, by decide, rfl⟩))),
    sendWith_inv _ _ _ _ (by decide) (by decide) (by decide) (.inr (.inr (.inl ⟨rfl, rfl, by decide, rfl, rfl⟩))),
    sendWith_inv _ _ _ _ (by decide) (by decide) (by decide) (.inr (.inr (.inl ⟨rfl, rfl, by decide, rfl, rfl⟩)))⟩

/-- A reply, a drop and a refusal without a store; and with one, a code and a quantity that do not ask it. -/
theorem test_witness_FourStepsComputeRespond :
    let s := decodeWith { } frameA
    (s.Inv ∧ cfgLegal s.cfg = true ∧ s.NoReset ∧ s.st = .decode ∧ s.HoldsChunk frameA ∧ ¬AsksStore s.cfg frameA) ∧
      respond { } noStore (frameA.take 11) = .drop .frameTooShort ∧
      respond Cfg.referenceProfile noStore (readOf 32767).bytes = .refuse ∧
      ¬AsksStore { storeMode := .capability } writeOne.bytes ∧ ¬AsksStore { storeMode := .capability } (readOf 126).bytes := by
  refine ⟨⟨decodeWith_inv _ _ (by decide) (by decide), by decide, State.noReset_of_no_inputs rfl, rfl, ⟨rfl, rfl⟩,
    not_asksStore_of_placeholder rfl _⟩, by decide, by decide, fun h => ?_, fun h => ?_⟩
  · exact absurd (h.request (f := writeOne) (rest := []) (by decide)).2.1 (by decide)
  · exact absurd (h.request (f := readOf 126) (rest := []) (by decide)).2.2.2 (by decide)

/-- A step of the surroundings with the given levels at the store port. -/
def portStim (pins : Pins) : Stim := { pins := pins }

/-- Two words with a gap before each and `sr_done` after them (ST1), and an `Err` after one step (ST3). -/
theorem test_witness_StoreReadComputesRespond :
    let waits := [portStim { }, portStim { srWordValid := true, srWord := 0x0100 }, portStim { },
      portStim { srWordValid := true, srWord := 0x0103 }]
    let last := portStim { srDone := true, srOk := true }
    let s := { decodeWith { storeMode := .capability } (readOf 2).bytes with
      inputs := portStim { } :: portStim { } :: (waits ++ last :: []) }
    let u := { decodeWith { storeMode := .capability } (readOf 17).bytes with
      inputs := portStim { } :: portStim { } :: ([portStim { }] ++ portStim { srDone := true } :: []) }
    s.Inv ∧ u.Inv ∧ s.NoReset ∧ u.NoReset ∧ cfgLegal s.cfg = true ∧ s.st = .decode ∧ s.HoldsChunk (readOf 2).bytes ∧
      u.HoldsChunk (readOf 17).bytes ∧ s.cfg.storeMode = .capability ∧
      unpackBytes (readOf 2).bytes = some (readOf 2, []) ∧ unpackBytes (readOf 17).bytes = some (readOf 17, []) ∧
      fieldError s.cfg s.rxCnt (readOf 2) = none ∧ fieldError u.cfg u.rxCnt (readOf 17) = none ∧
      (readOf 2).fc = 0x03 ∧ (∀ w ∈ waits, w.pins.srDone = false) ∧ last.pins.srDone = true ∧
      exampleStore 0 2 = portAnswer waits last ∧
      exampleStore 0 17 = portAnswer [portStim { }] (portStim { srDone := true }) :=
  ⟨decodeWith_inv { storeMode := .capability } _ (by decide) (by decide),
    decodeWith_inv { storeMode := .capability } _ (by decide) (by decide), by unfold State.NoReset; decide,
    by unfold State.NoReset; decide, by decide, rfl, ⟨rfl, rfl⟩, ⟨rfl, rfl⟩, by decide⟩

theorem test_witness_ChunkReceivedWhole :
    let s := idleWith { bufCap := 12 } frameA
    s.Inv ∧ cfgLegal s.cfg = true ∧ s.inputs = [] ∧ s.st = .idle ∧ s.pins.rxErr = false ∧ s.rxq = chunkOf frameA ++ [] ∧
      frameA ≠ [] ∧ frameA.length ≤ s.cfg.bufCap := ⟨idleWith_inv _ _, by decide⟩

theorem test_witness_SendWritesWholeResponse :
    let s := sendWith { } (readOf 1) onePdu 0x00
    s.Inv ∧ cfgLegal s.cfg = true ∧ s.inputs = [] ∧ s.st = .send ∧ s.txCnt = 0 ∧ s.pins.txErr = false ∧
      s.pins.txReady = true :=
  ⟨sendWith_inv _ _ _ _ (by decide) (by decide) (by decide) onePdu_response, by decide⟩

theorem test_witness_ChunkInResponseOut :
    let s := idleWith { } frameA
    s.Inv ∧ cfgLegal s.cfg = true ∧ s.inputs = [] ∧ s.st = .idle ∧ s.pins.rxErr = false ∧ s.pins.txErr = false ∧
      s.pins.txReady = true ∧ ¬AsksStore s.cfg frameA ∧ s.rxq = chunkOf frameA ++ [] ∧ frameA ≠ [] ∧
      frameA.length ≤ s.cfg.bufCap :=
  ⟨idleWith_inv _ _, by decide, rfl, rfl, rfl, rfl, rfl, not_asksStore_of_placeholder rfl _, by decide⟩

theorem test_witness_DropKeepsNoFrame :
    ∃ t, transition (decodeWith { } [0xAB]) = .next t ∧ t.err ≠ (decodeWith { } [0xAB]).err ∧
      (decodeWith { } [0xAB]).rx.read 0 = some 0xAB ∧ t.rx.read 0 = none := ⟨_, rfl, by decide⟩

theorem test_witness_InstancesAreIsolated :
    (∃ ts, stepInstance 0 [idleWith { } frameA, closedState] = .next ts) ∧ (1 : Nat) ≠ 0 := ⟨⟨_, rfl⟩, by decide⟩

end Sys2Proof.Tests
end

/-! # A chunk in, its response out (R14, R244 to R247)

The proof of O55: lemmas for each stage, then the receipt, the four inner states and the emission as runs. -/

namespace Sys2Proof.Machine

/-! ## The stages

One equation for each stage of the sequencer: what `transition` answers for the inputs that make it go on (R241). -/

/-! ### The Frame Reader -/

/-- The state with a byte taken from the transport and stored, `q` still waiting (R132). -/
def State.accept (s : State) (b : Byte) (last : Bool) (q : List (Byte × Bool)) : State :=
  ({ s with rx := s.rx.write s.rxCnt b, rxCnt := s.rxCnt + 1, rxq := q } : State).emit (.rxByte b last)

/-- The next byte of the chunk goes to the end of what `RX` holds. -/
theorem State.HoldsChunk.accept {s : State} {acc : List Byte} (h : s.HoldsChunk acc) (b : Byte) (last : Bool)
    (q : List (Byte × Bool)) : (s.accept b last q).HoldsChunk (acc ++ [b]) := by
  obtain ⟨hrx, hcnt⟩ := h
  refine ⟨?_, by simp [State.accept, hcnt]⟩
  simpa [State.accept, hrx, hcnt] using Memory.write_ofBytes_end 0 acc b

/-- A byte in the transport is accepted in `IDLE` and in `RECV` alike (R132, R133). -/
theorem transition_acceptByte {s : State} {b : Byte} {last : Bool} {q : List (Byte × Bool)}
    (hs : s.st = .idle ∨ s.st = .recv) (he : s.pins.rxErr = false) (hq : s.rxq = (b, last) :: q)
    (hlt : s.rxCnt < s.cfg.bufCap) :
    transition s = .next
      ((s.accept b last q).goto (if last = true ∨ s.rxCnt + 1 = s.cfg.bufCap then .decode else .recv)) := by
  have hacc : transition s = acceptByte b last q s := by
    rcases hs with hs | hs <;> simp [transition, hs, idleStep, recvStep, he, hq]
  simp [hacc, acceptByte, State.storeRxByte_eq b hlt, chunkEnds, State.accept]

/-! ### The four states between the transport's two ends -/

theorem transition_decode_short {s : State} (hs : s.st = .decode) (hn : s.rxCnt < 12) :
    transition s = .next (s.drop .frameTooShort) := by
  simp [transition, hs, decodeStep, hn]

theorem transition_decode_rejected {s : State} {f : Fields} {e : Err} (hs : s.st = .decode) (hn : 12 ≤ s.rxCnt)
    (hu : s.unpack = some f) (he : fieldError s.cfg s.rxCnt f = some e) :
    transition s = .next ((s.unpackAndLog f).drop e) := by
  simp [transition, hs, decodeStep, Nat.not_lt.2 hn, hu, he]

theorem transition_decode_accepted {s : State} {f : Fields} (hs : s.st = .decode) (hn : 12 ≤ s.rxCnt)
    (hu : s.unpack = some f) (he : fieldError s.cfg s.rxCnt f = none) :
    transition s = .next ((s.unpackAndLog f).goto .dispatch) := by
  simp [transition, hs, decodeStep, Nat.not_lt.2 hn, hu, he]

theorem transition_dispatch {s : State} {f : Fields} (hs : s.st = .dispatch) (hf : s.fields = some f) :
    transition s = .next (({ s with disp := classify f.fc } : State).goto .exec) := by
  simp [transition, hs, dispatchStep, hf]

theorem transition_exec {s : State} {f : Fields} (hs : s.st = .exec) (hf : s.fields = some f)
    (hd : s.disp = classify f.fc) : transition s = exec f.toInstr s := by
  simp [transition, hs, execStep, State.currentRequest, hf, hd]

/-- What `ENCODE` leaves: the response built, none of it sent (R221). -/
def State.encoded (s : State) (f : Fields) : State :=
  ({ s with adu := respondAdu f s.pdu, txLen := 7 + s.pdu.length, txCnt := 0 } : State).goto .send

theorem transition_encode {s : State} {f : Fields} (hs : s.st = .encode) (hf : s.fields = some f)
    (hl : 1 + s.pdu.length ≤ 65535) : transition s = .next (s.encoded f) := by
  simp [transition, hs, encodeStep, hf, buildAdu_eq f s.pdu hl, State.encoded, hdrLen]

/-! ### The emission -/

theorem transition_send_byte {s : State} {b : Byte} (hs : s.st = .send) (he : s.pins.txErr = false)
    (hr : s.pins.txReady = true) (hb : s.txData = some b) (hl : s.txLast = false) :
    transition s = .next { s.emit (.txByte b false) with txCnt := s.txCnt + 1 } := by
  simp [transition, hs, sendStep, he, hr, hb, hl]

theorem transition_send_last {s : State} {b : Byte} (hs : s.st = .send) (he : s.pins.txErr = false)
    (hr : s.pins.txReady = true) (hb : s.txData = some b) (hl : s.txLast = true) :
    transition s = .next (s.emit (.txByte b true)).finishRequest := by
  simp [transition, hs, sendStep, he, hr, hb, hl]

/-! ### Steps without inputs, and sampling -/

/-- With no input pending a step under legal straps is the transition of the state itself (log entry 3). -/
theorem step_of_no_inputs {s : State} (hi : s.inputs = []) (hc : cfgLegal s.cfg = true) : step s = transition s := by
  rw [(State.noReset_of_no_inputs hi).step hc, State.sample_of_no_inputs hi]

theorem State.sample_goto (s : State) (x : St) : (s.goto x).sample = s.sample.goto x := by
  cases h : s.inputs <;> simp [State.sample, State.goto, h]

theorem State.sample_unpackAndLog (s : State) (f : Fields) : (s.unpackAndLog f).sample = s.sample.unpackAndLog f := by
  cases h : s.inputs <;> simp [State.sample, State.unpackAndLog, State.latchFields, State.emit, h]

theorem State.sample_reply (s : State) (pdu : List Byte) (exc : Byte) :
    (s.reply pdu exc).sample = s.sample.reply pdu exc := by
  cases h : s.inputs <;> simp [State.sample, State.reply, h]

/-! ## The trace of a chunk and of a response

The trace of a whole chunk and of a whole response, and which bytes of it were written (R242, R250). -/

/-- The events of a chunk accepted byte by byte (R132). -/
def rxEvents (bs : List Byte) : List Event := (chunkOf bs).map fun x => .rxByte x.1 x.2

/-- The events of a response written byte by byte; its last byte is marked as a chunk's is (R224). -/
def txEvents (bs : List Byte) : List Event := (chunkOf bs).map fun x => .txByte x.1 x.2

@[simp] theorem rxEvents_singleton (b : Byte) : rxEvents [b] = [.rxByte b true] := rfl

@[simp] theorem rxEvents_cons_cons (b c : Byte) (bs : List Byte) :
    rxEvents (b :: c :: bs) = .rxByte b false :: rxEvents (c :: bs) := rfl

@[simp] theorem txEvents_singleton (b : Byte) : txEvents [b] = [.txByte b true] := rfl

@[simp] theorem txEvents_cons_cons (b c : Byte) (bs : List Byte) :
    txEvents (b :: c :: bs) = .txByte b false :: txEvents (c :: bs) := rfl

/-- The chunk-end marks aside, the transport offers the bytes of the chunk in order. -/
theorem chunkOf_map_fst (bs : List Byte) : (chunkOf bs).map Prod.fst = bs := by
  induction bs using chunkOf.induct with
  | case1 => rfl
  | case2 b => rfl
  | case3 b bs h ih => simp [chunkOf, ih]

theorem bytesWritten_of_rxEvents {s t : State} {bs : List Byte} (h : t.trace = s.trace ++ rxEvents bs) :
    t.bytesWritten = s.bytesWritten := by
  simp [State.bytesWritten, h, rxEvents]

theorem bytesWritten_of_txEvents {s t : State} {bs : List Byte} (h : t.trace = s.trace ++ txEvents bs) :
    t.bytesWritten = s.bytesWritten ++ bs := by
  have hfst : (chunkOf bs).filterMap (fun x => some x.1) = bs :=
    (congrFun List.filterMap_eq_map _).trans (chunkOf_map_fst bs)
  simp [State.bytesWritten, h, txEvents, List.filterMap_map, hfst]

theorem bytesWritten_of_log {s t : State} {r : LogRecord} (h : t.trace = s.trace ++ [.log r]) :
    t.bytesWritten = s.bytesWritten := by
  simp [State.bytesWritten, h]

theorem storeReads_of_log {s t : State} {r : LogRecord} (h : t.trace = s.trace ++ [.log r]) :
    t.storeReads = s.storeReads := by
  simp [State.storeReads, h]

/-! ## The receipt of a chunk

A chunk waiting in the transport is received whole (R131 to R133). -/

/-- What the receipt of the last bytes `bs` of a chunk leaves: `acc` was received before them, `q` still waits. -/
def State.received (s : State) (acc bs : List Byte) (q : List (Byte × Bool)) : State :=
  { s with st := .decode, rx := Memory.ofBytes 0 (acc ++ bs), rxCnt := (acc ++ bs).length, rxq := q,
           trace := s.trace ++ rxEvents bs }

/-- The bytes received so far grow by one byte a step, up to the byte marked last. -/
theorem runSteps_receive {bs : List Byte} (hb : bs ≠ []) {s : State} {acc : List Byte} {q : List (Byte × Bool)}
    (hs : s.st = .idle ∨ s.st = .recv) (hi : s.inputs = []) (hc : cfgLegal s.cfg = true)
    (he : s.pins.rxErr = false) (ha : s.HoldsChunk acc) (hq : s.rxq = chunkOf bs ++ q)
    (hcap : acc.length + bs.length ≤ s.cfg.bufCap) : runSteps bs.length s = .next (s.received acc bs q) := by
  induction bs using chunkOf.induct generalizing s acc with
  | case1 => exact absurd rfl hb
  | case2 b =>
    obtain ⟨hrx, hcnt⟩ := ha.accept b true q
    have hstep := transition_acceptByte hs he hq (by rw [ha.2]; exact hcap)
    have hend : (s.accept b true q).goto .decode = s.received acc [b] q := by
      rw [State.received, ← hrx, ← hcnt]
      rfl
    rw [← step_of_no_inputs hi hc, if_pos (.inl rfl)] at hstep
    rw [List.length_singleton, runSteps_succ 0 hstep, ← hend]
    rfl
  | case3 b bs hbs ih =>
    obtain ⟨c, bs, rfl⟩ := List.exists_cons_of_ne_nil hbs
    have hroom : s.rxCnt + 1 + (c :: bs).length ≤ s.cfg.bufCap := by simp [ha.2] at hcap ⊢; omega
    have hnotFull : s.rxCnt + 1 ≠ s.cfg.bufCap := by simp at hroom; omega
    have hstep := transition_acceptByte hs he hq (by omega)
    rw [← step_of_no_inputs hi hc, if_neg (by simpa using hnotFull)] at hstep
    have hrest := ih (s := (s.accept b false (chunkOf (c :: bs) ++ q)).goto .recv) (by simp) (.inr rfl) hi hc he
      (ha.accept b false (chunkOf (c :: bs) ++ q)) rfl (by rw [List.length_append, ← ha.2]; exact hroom)
    rw [List.length_cons, runSteps_succ _ hstep]
    refine hrest.trans ?_
    simp [State.received, State.accept, State.emit, State.goto]

/-! ## The emission of a response

A response is written whole to a peer that takes every byte (R224, R225, R246, R247). -/

/-- The first byte not yet written is the one offered; `tx_len` counts it and those after it (R224). -/
theorem State.txData_of_drop {s : State} {b : Byte} {bs : List Byte} (hl : s.txLen = s.adu.length)
    (hd : s.adu.drop s.txCnt = b :: bs) : s.txData = some b ∧ s.txLen = s.txCnt + (bs.length + 1) := by
  have hlen : s.adu.length - s.txCnt = bs.length + 1 := by rw [← List.length_drop, hd, List.length_cons]
  refine ⟨?_, by omega⟩
  rw [State.txData, if_pos (by omega), ← List.head?_drop, hd, List.head?_cons]

/-- The bytes of `adu` from `tx_cnt` on are written one a step; the last one ends the request. -/
theorem runSteps_emit {bs : List Byte} (hb : bs ≠ []) {s : State} (hs : s.st = .send) (hi : s.inputs = [])
    (hc : cfgLegal s.cfg = true) (he : s.pins.txErr = false) (hr : s.pins.txReady = true)
    (hl : s.txLen = s.adu.length) (hd : s.adu.drop s.txCnt = bs) :
    runSteps bs.length s = .next ({ s with trace := s.trace ++ txEvents bs } : State).finishRequest := by
  induction bs using chunkOf.induct generalizing s with
  | case1 => exact absurd rfl hb
  | case2 b =>
    obtain ⟨hdata, hlen⟩ := State.txData_of_drop hl hd
    have hstep := transition_send_last hs he hr hdata (by simp [State.txLast, hlen])
    rw [← step_of_no_inputs hi hc] at hstep
    simp [runSteps, hstep, State.emit]
  | case3 b bs hbs ih =>
    obtain ⟨c, bs, rfl⟩ := List.exists_cons_of_ne_nil hbs
    obtain ⟨hdata, hlen⟩ := State.txData_of_drop hl hd
    have hstep := transition_send_byte hs he hr hdata (by simp [State.txLast, hlen])
    rw [← step_of_no_inputs hi hc] at hstep
    have hrest : s.adu.drop (s.txCnt + 1) = c :: bs := by rw [← List.tail_drop, hd, List.tail_cons]
    rw [List.length_cons, runSteps_succ _ hstep]
    refine (ih (s := { s.emit (.txByte b false) with txCnt := s.txCnt + 1 }) (by simp) hs hi hc he hr hl hrest).trans ?_
    rw [txEvents_cons_cons, List.append_cons]
    rfl

/-! ## The handlers against `respond`

The handlers against `respond` where no store is asked: for one accepted request both reply the same, or both refuse
(R163, R171, R244). -/

/-- The checks of `respond` and those of `DECODE` are the same, in the same order (R244, R283). -/
theorem respond_of_fieldError {c : Cfg} {bs rest : List Byte} {f : Fields} {e : Err}
    (store : Word → Word → Option (List Word)) (hu : unpackBytes bs = some (f, rest))
    (he : fieldError c bs.length f = some e) : respond c store bs = .drop e := by
  unfold fieldError at he
  simp only [Bool.and_eq_true, decide_eq_true_eq] at he
  simp only [respond, hu]
  split_ifs at he with h1 h2 h3 <;> cases he
  · exact if_pos h1
  · rw [if_neg h1, if_pos h2]
  · rw [if_neg h1, if_neg h2, if_pos h3]

theorem fieldError_eq_none {c : Cfg} {n : Nat} {f : Fields} (h : fieldError c n f = none) :
    ¬(c.pidCheck = true ∧ f.pid ≠ 0) ∧ ¬(c.lenCheck = true ∧ f.len.toNat < 6) ∧
      ¬(c.lenCheck = true ∧ n < 6 + f.len.toNat) := by
  unfold fieldError at h
  simp only [Bool.and_eq_true, decide_eq_true_eq] at h
  split_ifs at h with h1 h2 h3
  exact ⟨h1, h2, h3⟩

theorem quantityRejected_iff {c : Cfg} {qty : Word} :
    quantityRejected c qty = true ↔ c.qtyPolicy = .strict ∧ (qty.toNat = 0 ∨ 125 < qty.toNat) := by
  simp [quantityRejected, quantityOutOfRange, maxQty]

theorem quantityRefused_iff {c : Cfg} {qty : Word} :
    quantityRefused c qty = true ↔ c.qtyPolicy = .reference ∧ 32766 < qty.toNat := by
  simp [quantityRefused, maxReferenceQty]

/-- A quantity that is neither rejected nor refused has a success response whose length field fits (R174, R228). -/
theorem successPdu_fits {c : Cfg} {qty : Word} {ws : List Word} (hrej : ¬quantityRejected c qty = true)
    (href : ¬quantityRefused c qty = true) (hl : ws.length = qty.toNat) :
    1 + (successPdu qty ws).length ≤ 65535 := by
  rw [successPdu_length, hl]
  rw [quantityRejected_iff] at hrej
  rw [quantityRefused_iff] at href
  cases hp : c.qtyPolicy <;> simp [hp] at hrej href <;> omega

/-- An accepted Read Holding Registers request with a valid quantity asks the store unless there is none (R244). -/
theorem storeMode_of_not_asksStore {c : Cfg} {bs rest : List Byte} {f : Fields} (hc : cfgLegal c = true)
    (ha : ¬AsksStore c bs) (hu : unpackBytes bs = some (f, rest)) (he : fieldError c bs.length f = none)
    (hfc : f.fc = 0x03) (hrej : ¬quantityRejected c f.qty = true) : c.storeMode = .placeholder := by
  cases hm : c.storeMode with
  | placeholder => rfl
  | capability =>
    rw [quantityRejected_iff, not_and] at hrej
    have hqty := hrej (cfgLegal_capability hc hm)
    exact absurd ⟨hm, f, rest, hu, he, hfc, by omega, by omega⟩ ha

/-- Where no store is asked, the handler of an accepted request and `respond` agree: the same PDU, which fits the length
field, or the refusal of R174 from both. -/
theorem exec_agrees_with_respond {c : Cfg} {bs rest : List Byte} {f : Fields} (hc : cfgLegal c = true)
    (ha : ¬AsksStore c bs) (hu : unpackBytes bs = some (f, rest)) (he : fieldError c bs.length f = none)
    (store : Word → Word → Option (List Word)) :
    (∃ pdu exc, 1 + pdu.length ≤ 65535 ∧ respond c store bs = .reply (respondAdu f pdu) ∧
        ∀ s : State, s.cfg = c → exec f.toInstr s = .next (s.reply pdu exc)) ∨
      respond c store bs = .refuse ∧
        ∀ s : State, s.cfg = c → exec f.toInstr s = .refused .quantityBeyondLengthField := by
  obtain ⟨hpid, hshort, htrunc⟩ := fieldError_eq_none he
  simp only [respond, hu]
  rw [if_neg hpid, if_neg hshort, if_neg htrunc]
  by_cases hfc : f.fc ≠ 0x03
  · refine .inl ⟨[f.fc ||| 0x80, 0x01], 0x01, by simp, if_pos hfc, fun s _ => ?_⟩
    rw [exec_of_not_rhr s (toInstr_not_rhr hfc), toInstr_fc]
    rfl
  rw [if_neg hfc, toInstr_rhr (not_not.1 hfc)]
  by_cases hrej : quantityRejected c f.qty = true
  · refine .inl ⟨[0x83, 0x03], 0x03, by simp, if_pos (quantityRejected_iff.1 hrej), fun s hs => ?_⟩
    simp [exec, execRhr, hs, Fields.toRequest, hrej, State.raiseReply]
  rw [if_neg (mt quantityRejected_iff.2 hrej)]
  by_cases href : quantityRefused c f.qty = true
  · refine .inr ⟨if_pos (quantityRefused_iff.1 href), fun s hs => ?_⟩
    simp [exec, execRhr, hs, Fields.toRequest, hrej, href]
  · have hm := storeMode_of_not_asksStore hc ha hu he (not_not.1 hfc) hrej
    refine .inl ⟨successPdu f.qty (placeholderWords f.qty), 0x00, successPdu_fits hrej href (by simp), ?_,
      fun s hs => ?_⟩
    · rw [if_neg (mt quantityRefused_iff.2 href), hm, successPdu, dataBytes_placeholder]
      rfl
    · simp [exec, execRhr, hs, Fields.toRequest, hrej, href, hm, State.replyWords]

/-- A chunk that `respond` does not drop unpacks to a request that passes the checks. -/
theorem accepted_of_respond {c : Cfg} {bs : List Byte} {store : Word → Word → Option (List Word)}
    (h : ∀ e, respond c store bs ≠ .drop e) :
    ∃ f rest, unpackBytes bs = some (f, rest) ∧ fieldError c bs.length f = none := by
  cases hu : unpackBytes bs with
  | none => exact absurd (by simp [respond, hu]) (h .frameTooShort)
  | some p =>
    obtain ⟨f, rest⟩ := p
    cases he : fieldError c bs.length f with
    | none => exact ⟨f, rest, rfl, he⟩
    | some e => exact absurd (respond_of_fieldError store hu he) (h e)

/-! ## The four inner states

The four states `DECODE` to `ENCODE` compute `respond` of a chunk that asks no store (R243 to R245), whatever the
transport does meanwhile. -/

/-- The state with the request unpacked, logged and classified, its handler next: what `DECODE` and `DISPATCH` leave. -/
def State.withRequest (s : State) (f : Fields) : State :=
  ({ s.unpackAndLog f with disp := classify f.fc } : State).goto .exec

@[simp] theorem State.withRequest_cfg (s : State) (f : Fields) : (s.withRequest f).cfg = s.cfg := rfl

/-- What the four states leave of a request that is answered: the response built, none of it sent. -/
def State.answered (s : State) (f : Fields) (pdu : List Byte) (exc : Byte) : State :=
  ((s.withRequest f).reply pdu exc).encoded f

/-- `DECODE` and `DISPATCH` of a chunk that passes the checks (R141 to R147, R161). -/
theorem runSteps_to_exec {s : State} {f : Fields} (hn : s.NoReset) (hc : cfgLegal s.cfg = true) (hs : s.st = .decode)
    (h12 : 12 ≤ s.rxCnt) (hu : s.unpack = some f) (he : fieldError s.cfg s.rxCnt f = none) (k : Nat) :
    runSteps (k + 2) s = runSteps k (s.sample.sample.withRequest f) := by
  have hdecode : step s = .next ((s.sample.unpackAndLog f).goto .dispatch) := by
    rw [hn.step hc]
    exact transition_decode_accepted (by simpa using hs) (by simpa using h12) (by simpa using hu) (by simpa using he)
  have hn' : ((s.sample.unpackAndLog f).goto .dispatch).NoReset := hn.sample
  have hdispatch : step ((s.sample.unpackAndLog f).goto .dispatch) = .next (s.sample.sample.withRequest f) := by
    rw [hn'.step (by simpa [State.unpackAndLog] using hc), State.sample_goto, State.sample_unpackAndLog]
    exact transition_dispatch rfl rfl
  rw [runSteps_succ _ hdecode, runSteps_succ _ hdispatch]

theorem State.sample_withRequest (s : State) (f : Fields) : (s.withRequest f).sample = s.sample.withRequest f := by
  cases h : s.inputs <;>
    simp [State.sample, State.withRequest, State.unpackAndLog, State.latchFields, State.emit, State.goto, h]

/-- The step in `EXEC` is the handler of the request (R164). -/
theorem step_withRequest {s : State} (f : Fields) (hn : s.NoReset) (hc : cfgLegal s.cfg = true) :
    step (s.withRequest f) = exec f.toInstr (s.sample.withRequest f) := by
  have hn' : (s.withRequest f).NoReset := hn
  rw [hn'.step hc, State.sample_withRequest]
  exact transition_exec rfl rfl rfl

/-- The step in `ENCODE` after a handler's reply (R221). -/
theorem step_withRequest_reply {s : State} (f : Fields) {pdu : List Byte} (exc : Byte) (hn : s.NoReset)
    (hc : cfgLegal s.cfg = true) (hl : 1 + pdu.length ≤ 65535) :
    step ((s.withRequest f).reply pdu exc) = .next (s.sample.answered f pdu exc) := by
  have hn' : ((s.withRequest f).reply pdu exc).NoReset := hn
  rw [hn'.step hc, State.sample_reply, State.sample_withRequest]
  exact transition_encode rfl rfl hl

/-- A drop in `DECODE` closes the connection in one step; the steps after it change nothing (R248, R285). -/
theorem runSteps_of_drop {s u : State} {e : Err} (k : Nat) (h : step s = .next (u.drop e)) (hn : u.NoReset)
    (hc : cfgLegal u.cfg = true) :
    ∃ t, runSteps (k + 1) s = .next t ∧ t.st = .closed ∧ t.err = e ∧ t.fields = none ∧ t.trace = u.trace := by
  have hn' : (u.drop e).NoReset := hn
  obtain ⟨t, ht, hsame, htr⟩ := runSteps_closed k (s := u.drop e) rfl hc hn'
  obtain ⟨-, hst, -, -, -, -, -, herr, hf, -⟩ := hsame
  exact ⟨t, by rw [runSteps_succ k h, ht], hst.symm, herr.symm, hf.symm, htr⟩

theorem State.HoldsChunk.unpack_eq {s : State} {bs rest : List Byte} {f : Fields} (hb : s.HoldsChunk bs)
    (hu : unpackBytes bs = some (f, rest)) : 12 ≤ s.rxCnt ∧ s.unpack = some f := by
  refine ⟨?_, by rw [hb.unpack, hu]; rfl⟩
  rw [hb.2, ← unpackBytes_isSome, hu]
  rfl

/-! ### The three outcomes of `respond` -/

section
variable {s : State} {bs : List Byte} {store : Word → Word → Option (List Word)} (hn : s.NoReset)
  (hc : cfgLegal s.cfg = true) (hs : s.st = .decode) (hb : s.HoldsChunk bs) (ha : ¬AsksStore s.cfg bs)
include hn hc hs hb ha

theorem fourSteps_of_reply {a : List Byte} (hr : respond s.cfg store bs = .reply a) :
    ∃ f pdu exc, a = respondAdu f pdu ∧
      runSteps 4 s = .next (s.sample.sample.sample.sample.answered f pdu exc) := by
  obtain ⟨f, rest, hu, he⟩ := accepted_of_respond (c := s.cfg) (bs := bs) (store := store) (by simp [hr])
  obtain ⟨h12, hunpack⟩ := hb.unpack_eq hu
  rcases exec_agrees_with_respond hc ha hu he store with ⟨pdu, exc, hl, hreply, hexec⟩ | ⟨hrefuse, -⟩
  · have hhandler : step (s.sample.sample.withRequest f) =
        .next ((s.sample.sample.sample.withRequest f).reply pdu exc) := by
      rw [step_withRequest f hn.sample.sample (by simpa using hc)]
      exact hexec _ (by simp)
    have hencode := step_withRequest_reply f exc hn.sample.sample.sample (by simpa using hc) hl
    refine ⟨f, pdu, exc, by simpa [hr] using hreply, ?_⟩
    rw [runSteps_to_exec hn hc hs h12 hunpack (hb.2 ▸ he) 2, runSteps_succ 1 hhandler, runSteps_succ 0 hencode]
    rfl
  · simp [hr] at hrefuse

theorem fourSteps_of_refuse (hr : respond s.cfg store bs = .refuse) :
    runSteps 4 s = .refused .quantityBeyondLengthField := by
  obtain ⟨f, rest, hu, he⟩ := accepted_of_respond (c := s.cfg) (bs := bs) (store := store) (by simp [hr])
  obtain ⟨h12, hunpack⟩ := hb.unpack_eq hu
  rcases exec_agrees_with_respond hc ha hu he store with ⟨pdu, exc, -, hreply, -⟩ | ⟨-, hexec⟩
  · simp [hr] at hreply
  · have hhandler : step (s.sample.sample.withRequest f) = .refused .quantityBeyondLengthField := by
      rw [step_withRequest f hn.sample.sample (by simpa using hc)]
      exact hexec _ (by simp)
    rw [runSteps_to_exec hn hc hs h12 hunpack (hb.2 ▸ he) 2]
    simp [runSteps, hhandler]

/-- The drops of `respond` are those of `DECODE`: under 12 bytes, or a failed check (R136, R143, R144). -/
theorem fourSteps_of_drop {e : Err} (hr : respond s.cfg store bs = .drop e) :
    ∃ t, runSteps 4 s = .next t ∧ t.st = .closed ∧ t.err = e ∧ t.fields = none ∧
      t.bytesWritten = s.bytesWritten ∧ t.storeReads = s.storeReads := by
  have hstep := hn.step hc
  cases hu : unpackBytes bs with
  | none =>
    obtain rfl : e = .frameTooShort := by simpa [respond, hu, eq_comm] using hr
    have hshort : s.rxCnt < 12 := by
      rw [hb.2, ← Nat.not_le, ← unpackBytes_isSome, hu]
      simp
    rw [transition_decode_short (by simpa using hs) (by simpa using hshort)] at hstep
    obtain ⟨t, ht, hst, herr, hf, htr⟩ := runSteps_of_drop 3 hstep hn.sample (by simpa using hc)
    exact ⟨t, ht, hst, herr, hf, by simp [State.bytesWritten, htr], by simp [State.storeReads, htr]⟩
  | some p =>
    obtain ⟨f, rest⟩ := p
    obtain ⟨h12, hunpack⟩ := hb.unpack_eq hu
    cases he : fieldError s.cfg bs.length f with
    | some e' =>
      obtain rfl : e' = e := by simpa [respond_of_fieldError store hu he] using hr
      rw [transition_decode_rejected (f := f) (by simpa using hs) (by simpa using h12) (by simpa using hunpack)
        (by simpa [hb.2] using he)] at hstep
      obtain ⟨t, ht, hst, herr, hf, htr⟩ := runSteps_of_drop 3 hstep hn.sample
        (by simpa [State.unpackAndLog] using hc)
      have hlog : t.trace = s.trace ++ [.log (logRecord f)] := by simpa [State.unpackAndLog] using htr
      exact ⟨t, ht, hst, herr, hf, bytesWritten_of_log hlog, storeReads_of_log hlog⟩
    | none =>
      rcases exec_agrees_with_respond hc ha hu he store with ⟨_, _, -, hreply, -⟩ | ⟨hrefuse, -⟩
      · simp [hr] at hreply
      · simp [hr] at hrefuse

end

/-! ## From `IDLE` to the last byte

From `IDLE` to the last byte of the response (R14, R244 to R247): the receipt, the four states, the emission. -/

/-- The emission of a response that stands unsent, to a peer that takes every byte. -/
theorem runSteps_answered {s : State} (f : Fields) (pdu : List Byte) (exc : Byte) (hi : s.inputs = [])
    (hc : cfgLegal s.cfg = true) (he : s.pins.txErr = false) (hr : s.pins.txReady = true) :
    ∃ t, runSteps (respondAdu f pdu).length (s.answered f pdu exc) = .next t ∧
      t.bytesWritten = s.bytesWritten ++ respondAdu f pdu ∧ t.st = (if s.cfg.multiReq then .idle else .closed) ∧
      t.err = s.err ∧ t.rxq = s.rxq := by
  have hne : respondAdu f pdu ≠ [] := fun h => by simpa using congrArg List.length h
  have hlog : (s.answered f pdu exc).bytesWritten = s.bytesWritten := bytesWritten_of_log (r := logRecord f) rfl
  have hrun := runSteps_emit hne (s := s.answered f pdu exc) rfl hi hc he hr (respondAdu_length f pdu).symm rfl
  refine ⟨_, hrun, ?_, rfl, rfl, rfl⟩
  rw [← hlog]
  exact bytesWritten_of_txEvents rfl

/-- Settles O55: the receipt, the four states and the emission in a row, by the outcome of `respond`. -/
theorem chunkInResponseOut : Obligations.ChunkInResponseOut := by
  intro s bs q store hinv hc hi hs hrx htx hready ha hq hne hcap
  obtain ⟨herr, hfresh⟩ : s.err = .none ∧ s.Fresh := by simpa [State.Inv, hs] using hinv
  have hreceive := runSteps_receive hne (.inl hs) hi hc hrx hfresh.1 hq (by simpa using hcap)
  have hin : (s.received [] bs q).inputs = [] := hi
  have hchunk : (s.received [] bs q).HoldsChunk bs := ⟨rfl, rfl⟩
  have hwritten : (s.received [] bs q).bytesWritten = s.bytesWritten := bytesWritten_of_rxEvents rfl
  have hn := State.noReset_of_no_inputs hin
  split
  next a hr =>
    obtain ⟨f, pdu, exc, rfl, hfour⟩ := fourSteps_of_reply hn hc rfl hchunk ha hr
    simp only [State.sample_of_no_inputs hin] at hfour
    obtain ⟨t, ht, hout, hst, hend, hrest⟩ := runSteps_answered f pdu exc hin hc htx hready
    refine ⟨t, ?_, hwritten ▸ hout, hst, hend.trans herr, hrest⟩
    rw [Nat.add_assoc, runSteps_trans _ hreceive, runSteps_trans _ hfour, ht]
  next e hr =>
    obtain ⟨t, ht, hst, hdrop, -, hout, -⟩ := fourSteps_of_drop hn hc rfl hchunk ha hr
    exact ⟨t, by rw [runSteps_trans _ hreceive, ht], hout.trans hwritten, hst, hdrop⟩
  next hr =>
    rw [runSteps_trans _ hreceive, fourSteps_of_refuse hn hc rfl hchunk ha hr]

end Sys2Proof.Machine

/-! # The state from step to step (R21, R22, R30, R37, R40, R45, R51, R241)

What one step changes of the block's own state and what it keeps: the frame of the handlers, what a row of R241 does to
each part of the state, and the invariant. -/

namespace Sys2Proof.Machine

/-! ## The handlers' frame (R38, R164, R190, R284) -/

/-- The request to the store marks it outstanding and records it once; nothing else changes (R176, R294). -/
theorem State.requestStore_eq (s : State) (a q : Word) :
    s.requestStore a q =
      { s with srBusy := true, trace := if s.srBusy then s.trace else s.trace ++ [.storeRead a q] } := by
  cases hb : s.srBusy <;> simp [State.requestStore, State.issueStoreRead, hb]
  rw [← hb]

/-- The three shapes of a handler's answer: a reply, a reply that closes a store read, the wait for the store. -/
theorem exec_cases {i : Instr} {s t : State} (h : exec i s = .next t) :
    (∃ pdu exc, t = s.reply pdu exc) ∨
      (∃ a q ans pdu exc, t = ((s.requestStore a q).closeStoreRead ans).reply pdu exc) ∨
      ∃ a q, t = { s.requestStore a q with srWords := s.collectedWords } := by
  by_cases hi : ∃ r, i = .rhr r
  · obtain ⟨r, rfl⟩ := hi
    rcases execRhr_cases h with ⟨-, rfl⟩ | ⟨-, -, -, rfl⟩ | ⟨-, -, -, hstore⟩
    · exact .inl ⟨_, _, rfl⟩
    · exact .inl ⟨_, _, rfl⟩
    · rcases storeReadStep_cases hstore with ⟨-, -, -, rfl⟩ | ⟨-, -, rfl⟩ | ⟨-, rfl⟩
      · exact .inr (.inl ⟨_, _, _, _, _, rfl⟩)
      · exact .inr (.inl ⟨_, _, _, _, _, rfl⟩)
      · exact .inr (.inr ⟨_, _, rfl⟩)
  · rw [exec_of_not_rhr s (not_exists.1 hi)] at h
    cases h
    exact .inl ⟨_, _, rfl⟩

/-- A handler writes `pdu`, `exc`, `st`, the store read's two fields and the trace, and nothing else. -/
theorem exec_frame {i : Instr} {s t : State} (h : exec i s = .next t) :
    ∃ pdu exc st busy words tr,
      t = { s with pdu := pdu, exc := exc, st := st, srBusy := busy, srWords := words, trace := tr } := by
  rcases exec_cases h with ⟨pdu, exc, rfl⟩ | ⟨a, q, ans, pdu, exc, rfl⟩ | ⟨a, q, rfl⟩
  · exact ⟨_, _, _, _, _, _, rfl⟩
  · rw [State.requestStore_eq]
    exact ⟨_, _, _, _, _, _, rfl⟩
  · rw [State.requestStore_eq]
    exact ⟨_, _, _, _, _, _, rfl⟩

/-- A handler replies, or waits in the state it is in (R164, R243). -/
theorem exec_st {i : Instr} {s t : State} (h : exec i s = .next t) : t.st = .encode ∨ t.st = s.st := by
  rcases exec_cases h with ⟨pdu, exc, rfl⟩ | ⟨a, q, ans, pdu, exc, rfl⟩ | ⟨a, q, rfl⟩
  · exact .inl rfl
  · exact .inl rfl
  · exact .inr (by rw [State.requestStore_eq])

/-- Settles O21: the frame of the handlers, field by field. -/
theorem handlerFrame : Obligations.HandlerFrame := by
  intro i s t h
  have hst : s.st = .exec → t.st = .encode ∨ t.st = .exec := fun hs => hs ▸ exec_st h
  have hother : (∀ r, i ≠ .rhr r) → t.srBusy = s.srBusy ∧ t.srWords = s.srWords ∧ t.trace = s.trace := fun hi => by
    rw [exec_of_not_rhr s hi] at h
    cases h
    exact ⟨rfl, rfl, rfl⟩
  obtain ⟨_, _, _, _, _, _, rfl⟩ := exec_frame h
  exact ⟨fun _ => rfl, rfl, rfl, rfl, rfl, rfl, rfl, rfl, rfl, rfl, rfl, rfl, rfl, hst, hother⟩

/-! ## What a transition changes

One lemma for each part of the state, by cases on the rows of R241. -/

/-- A failed check names a reason. -/
theorem fieldError_ne_none {c : Cfg} {n : Nat} {f : Fields} {e : Err} (h : fieldError c n f = some e) : e ≠ .none := by
  unfold fieldError at h
  split_ifs at h <;> cases h <;> decide

section
variable {s t : State} (h : transition s = .next t)
include h

theorem transition_st_mem_successors : t.st ∈ successors s.st := by
  cases transition_row h with
  | readFailure hs => rcases hs with hs | hs <;> simp [hs, successors, readFailure]
  | byteAccepted hs =>
    rw [State.goto_st]
    split <;> rcases hs with hs | hs <;> simp [hs, successors]
  | waitForByte hs => rcases hs with hs | hs <;> simp [hs, successors]
  | handled hs i _ _ hx => rcases exec_st hx with ht | ht <;> simp [ht, hs, successors]
  | lastByteWritten hs => cases hm : s.cfg.multiReq <;> simp [hs, successors, State.finishRequest, hm]
  | endBetweenRequests hs | endOfChunk hs | frameTooShort hs | fieldsRejected hs | fieldsAccepted hs | dispatched hs
  | encoded hs | writeFailure hs | byteWritten hs | waitForPeer hs | closed hs => simp [hs, successors]

/-- `CFG` is read-only (R40). -/
theorem transition_cfg : t.cfg = s.cfg := by
  cases transition_row h with
  | handled _ _ _ _ hx =>
    obtain ⟨_, _, _, _, _, _, rfl⟩ := exec_frame hx
    exact rfl
  | _ => rfl

/-- A transition leaves `err` alone, or it is a drop, possibly after an event (R37, R285). -/
theorem transition_err_eq_or_drop :
    t.err = s.err ∨ ∃ e tr, e ≠ .none ∧ t = ({ s with trace := s.trace ++ tr } : State).drop e := by
  cases transition_row h with
  | readFailure => exact .inr ⟨.rxFail, [.rxErr], by decide, rfl⟩
  | frameTooShort => exact .inr ⟨.frameTooShort, [], by decide, by rw [List.append_nil]⟩
  | fieldsRejected _ _ f _ e he => exact .inr ⟨e, [.log (logRecord f)], fieldError_ne_none he, rfl⟩
  | writeFailure => exact .inr ⟨.txFail, [.txErr], by decide, rfl⟩
  | handled _ _ _ _ hx =>
    obtain ⟨_, _, _, _, _, _, rfl⟩ := exec_frame hx
    exact .inl rfl
  | _ => exact .inl rfl

theorem transition_fields :
    t.fields = s.fields ∨ t.fields = none ∨ (s.st = .decode ∧ 12 ≤ s.rxCnt ∧ t.fields = s.unpack) := by
  cases transition_row h with
  | fieldsAccepted hs hn f hu => exact .inr (.inr ⟨hs, hn, hu.symm⟩)
  | readFailure | frameTooShort | fieldsRejected | writeFailure | lastByteWritten => exact .inr (.inl rfl)
  | handled _ _ _ _ hx =>
    obtain ⟨_, _, _, _, _, _, rfl⟩ := exec_frame hx
    exact .inl rfl
  | _ => exact .inl rfl

/-- `RX` is emptied, takes one byte, or stays as it is (R45, R132). -/
theorem transition_rx : t.rx = s.rx ∨ t.rx = [] ∨ ∃ b, t.rx = s.rx.write s.rxCnt b := by
  cases transition_row h with
  | byteAccepted _ _ b => exact .inr (.inr ⟨b, rfl⟩)
  | readFailure | frameTooShort | fieldsRejected | writeFailure | lastByteWritten => exact .inr (.inl rfl)
  | handled _ _ _ _ hx =>
    obtain ⟨_, _, _, _, _, _, rfl⟩ := exec_frame hx
    exact .inl rfl
  | _ => exact .inl rfl

end

/-- Settles O37: without a reset a step is a transition, which moves along an edge. -/
theorem sequencerFollowsEdges : Obligations.SequencerFollowsEdges := by
  intro s t h hr
  rcases step_cases h with ⟨hr', -⟩ | ⟨-, -, ht⟩
  · simp [hr] at hr'
  · simpa using transition_st_mem_successors ht

/-- Settles O38: an `err` that changes is written by a drop, which gives a reason. -/
theorem onlyResetChangesCfgOrClearsErr : Obligations.OnlyResetChangesCfgOrClearsErr := by
  intro s t h hr
  rcases step_cases h with ⟨hr', -⟩ | ⟨-, -, ht⟩
  · simp [hr] at hr'
  · refine ⟨by simpa using transition_cfg ht, fun herr => ?_⟩
    rcases transition_err_eq_or_drop ht with hkeep | ⟨e, tr, he, rfl⟩
    · simpa [hkeep] using herr
    · exact he

/-- Settles O39: a reset leaves no value, a transition acts as `transition_fields` says. -/
theorem onlyUnpackWritesFields : Obligations.OnlyUnpackWritesFields := by
  intro s t h
  rcases step_cases h with ⟨-, rfl⟩ | ⟨-, -, ht⟩
  · exact .inr (.inl rfl)
  · simpa using transition_fields ht

/-- Settles O46: the one write of `RX` is `Memory.write`, which keeps the canonical form. -/
theorem stepKeepsMemoryCanonical : Obligations.StepKeepsMemoryCanonical := by
  intro s t hwf h
  rcases step_cases h with ⟨-, rfl⟩ | ⟨-, -, ht⟩
  · exact List.Pairwise.nil
  · rcases transition_rx ht with hrx | hrx | ⟨b, hrx⟩ <;> rw [hrx]
    · simpa using hwf
    · exact List.Pairwise.nil
    · exact Memory.write_wf (by simpa using hwf) _ b

/-- Settles O35: the last byte is the row `lastByteWritten`; a change of `err` is a drop, which keeps the counters. -/
theorem requestEndReinitialises : Obligations.RequestEndReinitialises := by
  refine ⟨fun s b hs he hr hl hb => ?_, fun s t h herr => ?_⟩
  · have hdata : s.txData = some b := by rw [State.txData, if_pos (by omega), hb]
    exact transition_send_last hs he hr hdata (by simp [State.txLast, hl])
  · rcases transition_err_eq_or_drop h with hkeep | ⟨e, tr, -, rfl⟩
    · exact absurd hkeep herr
    · exact ⟨rfl, rfl, rfl, rfl, rfl, rfl, rfl⟩

/-! ## The invariant

Every row of R241 keeps `State.Inv`. The states in which a chunk is received share one predicate, the drops one lemma, and a
handler's answer is a response to the request in hand. Where the new `st` is known by computation, `show _ ∧ _` opens its
clause of the invariant. -/

/-! ### Reset and the states without a request -/

/-- A state as R51 leaves it satisfies the invariant in `IDLE` and in `CLOSED`. -/
theorem State.Fresh.inv {s : State} (h : s.Fresh) (he : s.err = .none) (hs : s.st = .idle ∨ s.st = .closed) :
    s.Inv := by
  rcases hs with hs | hs <;> simp only [State.Inv, hs]
  · exact ⟨he, h⟩
  · obtain ⟨⟨hrx, -⟩, hfields, -, ⟨-, -, -, hpdu, hadu⟩, hsr⟩ := id h
    exact ⟨hfields, hrx, hpdu, hadu, hsr, fun _ => h⟩

theorem State.reset_fresh : State.reset.Fresh :=
  ⟨⟨rfl, rfl⟩, rfl, rfl, ⟨rfl, rfl, rfl, rfl, rfl⟩, rfl, rfl⟩

theorem State.resetBlock_fresh (s : State) : s.resetBlock.Fresh :=
  ⟨⟨rfl, rfl⟩, rfl, rfl, ⟨rfl, rfl, rfl, rfl, rfl⟩, rfl, rfl⟩

theorem State.finishRequest_fresh (s : State) : s.finishRequest.Fresh :=
  ⟨⟨rfl, rfl⟩, rfl, rfl, ⟨rfl, rfl, rfl, rfl, rfl⟩, rfl, rfl⟩

/-- Settles O44: the reset state is fresh, and its empty memory canonical. -/
theorem resetSatisfiesInvariant : Obligations.ResetSatisfiesInvariant :=
  ⟨State.reset_fresh.inv rfl (.inl rfl), List.Pairwise.nil⟩

/-- The surroundings' part of a step does not touch what the invariant speaks of. -/
theorem State.Inv.sample {s : State} (h : s.Inv) : s.sample.Inv := by
  unfold State.sample
  split
  · exact h
  · exact h

/-! ### Receiving -/

/-- The chunk received so far is `bs` and no request is in hand: `IDLE`, `RECV` and `DECODE` under the invariant. -/
def State.Receiving (s : State) (bs : List Byte) : Prop :=
  s.err = .none ∧ s.HoldsChunk bs ∧ s.fields = none ∧ s.disp = .none ∧ s.NoResponse ∧ s.NoStoreRead

theorem State.Inv.receiving {s : State} (h : s.Inv) (hs : s.st = .idle ∨ s.st = .recv ∨ s.st = .decode) :
    ∃ bs, s.Receiving bs := by
  rcases hs with hs | hs | hs <;> simp only [State.Inv, hs] at h
  · obtain ⟨he, hchunk, hrest⟩ := h
    exact ⟨[], he, hchunk, hrest⟩
  · obtain ⟨he, -, -, ⟨bs, hchunk⟩, hrest⟩ := h
    exact ⟨bs, he, hchunk, hrest⟩
  · obtain ⟨he, -, -, ⟨bs, hchunk⟩, hrest⟩ := h
    exact ⟨bs, he, hchunk, hrest⟩

theorem State.Receiving.accept {s : State} {bs : List Byte} (h : s.Receiving bs) (b : Byte) (last : Bool)
    (q : List (Byte × Bool)) : (s.accept b last q).Receiving (bs ++ [b]) := by
  obtain ⟨he, hchunk, hrest⟩ := h
  exact ⟨he, hchunk.accept b last q, hrest⟩

theorem State.Receiving.inv_recv {s : State} {bs : List Byte} (h : s.Receiving bs) (h0 : 0 < s.rxCnt)
    (hcap : s.rxCnt < s.cfg.bufCap) : (s.goto .recv).Inv := by
  obtain ⟨he, hchunk, hrest⟩ := h
  exact show _ ∧ _ from ⟨he, h0, hcap, ⟨bs, hchunk⟩, hrest⟩

theorem State.Receiving.inv_decode {s : State} {bs : List Byte} (h : s.Receiving bs) (h0 : 0 < s.rxCnt)
    (hcap : s.rxCnt ≤ s.cfg.bufCap) : (s.goto .decode).Inv := by
  obtain ⟨he, hchunk, hrest⟩ := h
  exact show _ ∧ _ from ⟨he, h0, hcap, ⟨bs, hchunk⟩, hrest⟩

/-- An accepted byte either fills the buffer or ends the chunk, or leaves room for another (R133). -/
theorem State.Inv.accept {s : State} (h : s.Inv) (hs : s.st = .idle ∨ s.st = .recv) (b : Byte) (last : Bool)
    (q : List (Byte × Bool)) (hlt : s.rxCnt < s.cfg.bufCap) :
    ((s.accept b last q).goto (if last = true ∨ s.rxCnt + 1 = s.cfg.bufCap then .decode else .recv)).Inv := by
  obtain ⟨bs, hr⟩ := h.receiving (hs.imp_right .inl)
  have hcnt : (s.accept b last q).rxCnt = s.rxCnt + 1 := rfl
  have hcap : (s.accept b last q).cfg.bufCap = s.cfg.bufCap := rfl
  split
  next => exact (hr.accept b last q).inv_decode (by omega) (by omega)
  next hmore =>
    rw [not_or] at hmore
    exact (hr.accept b last q).inv_recv (by omega) (by omega)

/-! ### Drops -/

/-- A drop satisfies the invariant wherever it comes from, if no store read is outstanding (R270, R285). -/
theorem State.NoStoreRead.inv_drop {s : State} (h : s.NoStoreRead) {e : Err} (he : e ≠ .none) : (s.drop e).Inv :=
  show _ ∧ _ from ⟨rfl, rfl, rfl, rfl, h, fun hn => absurd hn he⟩

/-! ### The handlers' answers -/

/-- The request reads the store: Read Holding Registers with a valid quantity, under a store (R171, R176). -/
def ReadsStore (c : Cfg) (f : Fields) : Prop :=
  f.fc = 0x03 ∧ c.storeMode = .capability ∧ quantityRejected c f.qty = false ∧ c.qtyPolicy = .strict

/-- The handler's answer to a request: a response at once if the request reads no store; else the response that closes the
store read, or the wait. -/
theorem exec_answer {s t : State} {f : Fields} (h : exec f.toInstr s = .next t) :
    (¬ReadsStore s.cfg f ∧ ∃ pdu exc, ResponsePdu s.cfg f pdu exc ∧ t = s.reply pdu exc) ∨
      ReadsStore s.cfg f ∧
        ((∃ ans pdu exc, ResponsePdu s.cfg f pdu exc ∧
            t = ((s.requestStore f.addr f.qty).closeStoreRead ans).reply pdu exc) ∨
          t = { s.requestStore f.addr f.qty with srWords := s.collectedWords }) := by
  by_cases hfc : f.fc = 0x03
  · rw [toInstr_rhr hfc] at h
    rcases execRhr_cases h with ⟨hrej, rfl⟩ | ⟨hrej, href, hm, rfl⟩ | ⟨hrej, hp, hm, hstore⟩
    · refine .inl ⟨fun ⟨_, _, hok, _⟩ => ?_, _, _, .inr (.inr (.inr ⟨rfl, hfc, hrej, rfl⟩)), rfl⟩
      exact absurd (hrej.symm.trans hok) (by decide)
    · refine .inl ⟨fun ⟨_, hcap, _, _⟩ => ?_, _, _,
        .inl ⟨rfl, hfc, hrej, href, _, placeholderWords_length _, rfl, fun _ => rfl⟩, rfl⟩
      exact absurd (hm.symm.trans hcap) (by decide)
    · have href : quantityRefused s.cfg f.qty = false := by simp [quantityRefused, hp]
      have hin : quantityOutOfRange f.qty = false := by
        simpa [quantityRejected, hp, Fields.toRequest] using hrej
      refine .inr ⟨⟨hfc, hm, hrej, hp⟩, ?_⟩
      rcases storeReadStep_cases hstore with ⟨-, -, hlen, rfl⟩ | ⟨-, -, rfl⟩ | ⟨-, rfl⟩
      · refine .inl ⟨_, _, _, .inl ⟨rfl, hfc, hrej, href, _, hlen, rfl, fun hph => ?_⟩, rfl⟩
        exact absurd (hph.symm.trans hm) (by decide)
      · exact .inl ⟨_, _, _, .inr (.inr (.inl ⟨rfl, hfc, hin, hm, rfl⟩)), rfl⟩
      · exact .inr rfl
  · rw [exec_of_not_rhr s (toInstr_not_rhr hfc), toInstr_fc] at h
    cases h
    exact .inl ⟨fun ⟨h3, _⟩ => hfc h3, _, _, .inr (.inl ⟨rfl, hfc, rfl⟩), rfl⟩

/-- The request that `EXEC` runs is the one in the field registers, classified by `disp` (R164). -/
theorem State.fields_of_currentRequest {s : State} {i : Instr} (h : s.currentRequest = some i) :
    ∃ f, s.fields = some f ∧ s.disp = classify f.fc ∧ i = f.toInstr := by
  unfold State.currentRequest at h
  split at h
  next => cases h
  next f hf =>
    split at h
    next hd => exact ⟨f, hf, hd, by simpa using h.symm⟩
    next => cases h

theorem State.HoldsRequest.eq_of_fields {s : State} {f g : Fields} (h : s.HoldsRequest f) (hg : s.fields = some g) :
    g = f :=
  Option.some.inj (hg.symm.trans h.1)

/-- A handler keeps the invariant: its response is one to the request in hand, and a read it waits for is one that the
request asks. -/
theorem State.Inv.handled {s t : State} {i : Instr} (h : s.Inv) (hs : s.st = .exec) (hi : s.currentRequest = some i)
    (hx : exec i s = .next t) : t.Inv := by
  simp only [State.Inv, hs] at h
  obtain ⟨he, hresp, hwords, f, hreq, hdisp, hbusy⟩ := h
  obtain ⟨g, hg, -, rfl⟩ := State.fields_of_currentRequest hi
  obtain rfl := hreq.eq_of_fields hg
  obtain ⟨-, hlen, hcnt, -, hadu⟩ := id hresp
  rcases exec_answer hx with ⟨hno, pdu, exc, hpdu, rfl⟩ | ⟨hreads, ⟨ans, pdu, exc, hpdu, rfl⟩ | rfl⟩
  · have hidle : s.srBusy = false := by simpa using mt hbusy hno
    exact show _ ∧ _ from ⟨he, hlen, hcnt, hadu, ⟨hidle, hwords hidle⟩, g, hreq, hdisp, hpdu⟩
  · rw [State.requestStore_eq]
    exact show _ ∧ _ from ⟨he, hlen, hcnt, hadu, ⟨rfl, rfl⟩, g, hreq, hdisp, hpdu⟩
  · rw [State.requestStore_eq]
    simp only [State.Inv, hs]
    exact ⟨he, hresp, nofun, g, hreq, hdisp, fun _ => hreads⟩

/-! ### The transition and the step -/

/-- The unpack that passes the checks puts the request of the chunk in hand (R141, R147). -/
theorem State.Inv.fieldsAccepted {s : State} {f : Fields} (h : s.Inv) (hs : s.st = .decode) (hu : s.unpack = some f)
    (hok : fieldError s.cfg s.rxCnt f = none) : ((s.unpackAndLog f).goto .dispatch).Inv := by
  simp only [State.Inv, hs] at h
  obtain ⟨he, -, hcap, ⟨bs, hchunk⟩, -, hdisp, hresp, hsr⟩ := h
  obtain ⟨⟨g, rest⟩, hbytes, rfl⟩ := Option.map_eq_some_iff.1 (hchunk.unpack.symm.trans hu)
  exact show _ ∧ _ from ⟨he, ⟨g, rfl, hcap, hok, bs, rest, hchunk, hbytes⟩, hdisp, hresp, hsr⟩

/-- Every row of R241 keeps the invariant. -/
theorem transition_keeps_inv {s t : State} (h : s.Inv) (ht : transition s = .next t) : t.Inv := by
  cases transition_row ht with
  | readFailure hs =>
    obtain ⟨_, -, -, -, -, -, hsr⟩ := h.receiving (hs.imp_right .inl)
    exact State.NoStoreRead.inv_drop (s := s.emit .rxErr) hsr (by decide)
  | byteAccepted hs _ b last q _ hlt => exact h.accept hs b last q hlt
  | endBetweenRequests hs =>
    simp only [State.Inv, hs] at h
    obtain ⟨he, hfresh⟩ := h
    exact State.Fresh.inv (s := (s.emit .rxEof).goto .closed) hfresh he (.inr rfl)
  | endOfChunk hs =>
    obtain ⟨bs, hr⟩ := h.receiving (.inr (.inl hs))
    simp only [State.Inv, hs] at h
    obtain ⟨-, h0, hlt, -⟩ := h
    exact State.Receiving.inv_decode (s := s.emit .rxEof) hr h0 (Nat.le_of_lt hlt)
  | frameTooShort hs =>
    obtain ⟨_, -, -, -, -, -, hsr⟩ := h.receiving (.inr (.inr hs))
    exact hsr.inv_drop (by decide)
  | fieldsRejected hs _ f _ e hbad =>
    obtain ⟨_, -, -, -, -, -, hsr⟩ := h.receiving (.inr (.inr hs))
    exact State.NoStoreRead.inv_drop (s := s.unpackAndLog f) hsr (fieldError_ne_none hbad)
  | fieldsAccepted hs _ f hu hok => exact h.fieldsAccepted hs hu hok
  | dispatched hs f hf =>
    simp only [State.Inv, hs] at h
    obtain ⟨he, ⟨g, hreq⟩, -, hresp, hbusy, hwords⟩ := h
    obtain rfl := hreq.eq_of_fields hf
    exact show _ ∧ _ from
      ⟨he, hresp, fun _ => hwords, f, hreq, rfl, fun hb => absurd (hbusy.symm.trans hb) (by decide)⟩
  | handled hs i hi _ hx => exact h.handled hs hi hx
  | encoded hs f hf =>
    simp only [State.Inv, hs] at h
    obtain ⟨he, -, -, -, hsr, g, hreq, hdisp, hpdu⟩ := h
    obtain rfl := hreq.eq_of_fields hf
    exact show _ ∧ _ from
      ⟨he, Nat.add_pos_left (by decide) _, (respondAdu_length f s.pdu).symm, hsr, f, hreq, hdisp, hpdu, rfl⟩
  | writeFailure hs =>
    simp only [State.Inv, hs] at h
    obtain ⟨-, -, -, hsr, -⟩ := h
    exact State.NoStoreRead.inv_drop (s := s.emit .txErr) hsr (by decide)
  | byteWritten hs _ _ b _ hl =>
    simp only [State.Inv, hs] at h
    obtain ⟨he, hlt, hrest⟩ := h
    have hmore : s.txCnt + 1 ≠ s.txLen := by simpa [State.txLast] using hl
    simp only [State.Inv, State.emit_st, hs]
    exact ⟨he, Nat.lt_of_le_of_ne hlt hmore, hrest⟩
  | lastByteWritten hs _ _ b =>
    simp only [State.Inv, hs] at h
    obtain ⟨he, -⟩ := h
    refine (State.finishRequest_fresh _).inv he ?_
    cases hm : s.cfg.multiReq <;> simp [State.finishRequest, State.reinit, hm]
  | waitForByte | waitForPeer | closed => exact h

/-- Settles O45: what a reset leaves is fresh; sampling and the transition keep the invariant. -/
theorem stepKeepsInvariant : Obligations.StepKeepsInvariant := by
  intro s t h hstep
  rcases step_cases hstep with ⟨-, rfl⟩ | ⟨-, -, ht⟩
  · exact (State.resetBlock_fresh _).inv rfl (.inl rfl)
  · exact transition_keeps_inv h.sample ht

/-! ## Values at reset and the status view -/

/-- Settles O25: each value of R50 is that of the reset state by computation. -/
theorem resetStateValues : Obligations.ResetStateValues :=
  ⟨rfl, rfl, rfl, rfl, rfl, rfl, rfl, rfl, fun _ => rfl, rfl, rfl, rfl⟩

/-- Settles O57: the view is its definition, the codes are evaluated. -/
theorem statusShowsCodes : Obligations.StatusShowsCodes :=
  ⟨fun _ => rfl, by decide, by decide⟩

end Sys2Proof.Machine

/-! # Store reads and stops (R62, R70, R164, R174, R176, R228)

Which handler step issues a `StoreRead`, and which steps do not answer: under the invariant none faults, and only Read
Holding Registers can be refused. -/

namespace Sys2Proof.Machine

/-! ## The issue of a `StoreRead` -/

/-- The request to the store is recorded when it is made, not while it is outstanding (R176). -/
theorem State.requestStore_storeReads (s : State) (a q : Word) :
    (s.requestStore a q).storeReads = s.storeReads ++ if s.srBusy then [] else [(a, q)] := by
  rw [State.requestStore_eq]
  cases s.srBusy <;> simp [State.storeReads]

/-- An answer from the store is not a read of it. -/
@[simp] theorem State.closeStoreRead_storeReads (s : State) (ans : Option (List Word)) :
    (s.closeStoreRead ans).storeReads = s.storeReads := by
  simp [State.storeReads]

/-- A step of the store read records the request alone; the read is answered by a reply, or still outstanding. -/
theorem storeReadStep_storeReads {a q : Word} {s t : State} (h : storeReadStep a q s = .next t) :
    t.storeReads = (s.requestStore a q).storeReads ∧ (t.st = .encode ∨ t.srBusy = true) := by
  rcases storeReadStep_cases h with ⟨-, -, -, rfl⟩ | ⟨-, -, rfl⟩ | ⟨-, rfl⟩
  · exact ⟨State.closeStoreRead_storeReads _ _, .inl rfl⟩
  · exact ⟨State.closeStoreRead_storeReads _ _, .inl rfl⟩
  · exact ⟨rfl, .inr (by rw [State.requestStore_eq])⟩

/-- Settles O20: the one path to the store is the last case of R171, and there `requestStore` issues. -/
theorem storeReadIssuedOnce : Obligations.StoreReadIssuedOnce := by
  intro i s t h
  by_cases hi : ∃ r, i = .rhr r
  · obtain ⟨r, rfl⟩ := hi
    rcases execRhr_cases h with ⟨-, rfl⟩ | ⟨-, -, -, rfl⟩ | ⟨hrej, hp, hm, hstore⟩
    · exact .inl rfl
    · exact .inl rfl
    · obtain ⟨hreads, hend⟩ := storeReadStep_storeReads hstore
      rw [State.requestStore_storeReads] at hreads
      cases hb : s.srBusy with
      | true => exact .inl (by simpa [hb] using hreads)
      | false =>
        have hqty : ¬(r.qty.toNat = 0 ∨ 125 < r.qty.toNat) := fun hbad =>
          absurd (hrej.symm.trans (quantityRejected_iff.2 ⟨hp, hbad⟩)) (by decide)
        exact .inr ⟨rfl, r, rfl, hm, hp, by omega, by omega, by simpa [hb] using hreads, hend⟩
  · rw [exec_of_not_rhr s (not_exists.1 hi)] at h
    cases h
    exact .inl rfl

/-! ## What a handler refuses -/

/-- The store read refuses nothing but a wrong number of words (R70). -/
theorem storeReadStep_refused {a q : Word} {s : State} {e : Refusal} (h : storeReadStep a q s = .refused e) :
    e = .storeContractBroken := by
  unfold storeReadStep at h
  split_ifs at h
  cases h
  rfl

/-- The refusals of Read Holding Registers, under straps that are a configuration of this hardware (R174, R70). -/
theorem execRhr_refused {r : Request} {s : State} {e : Refusal} (hc : cfgLegal s.cfg = true)
    (h : execRhr r s = .refused e) :
    e = .quantityBeyondLengthField ∧ s.cfg.qtyPolicy = .reference ∨
      e = .storeContractBroken ∧ s.cfg.storeMode = .capability := by
  unfold execRhr at h
  split at h
  next => cases h
  next =>
    split at h
    next href =>
      cases h
      exact .inl ⟨rfl, (quantityRefused_iff.1 href).1⟩
    next =>
      split at h
      next => cases h
      next hm =>
        rw [if_neg (by simp [cfgLegal_capability hc hm])] at h
        exact .inr ⟨storeReadStep_refused h, hm⟩

/-! ## Where a transition answers

One lemma for each part of the sequencer, under what the invariant says there. -/

/-- With room for a byte the Frame Reader takes it, sees the stream end or fail, or waits (R132 to R135). -/
theorem transition_receiving_answers {s : State} (hs : s.st = .idle ∨ s.st = .recv) (hlt : s.rxCnt < s.cfg.bufCap) :
    ∃ t, transition s = .next t := by
  cases he : s.pins.rxErr with
  | true => exact ⟨readFailure s, by rcases hs with hs | hs <;> simp [transition, hs, idleStep, recvStep, he]⟩
  | false =>
    cases hq : s.rxq with
    | cons x q => exact ⟨_, transition_acceptByte hs he hq hlt⟩
    | nil =>
      rcases hs with hs | hs <;> cases hf : s.pins.rxEof <;> simp [transition, hs, idleStep, recvStep, he, hq, hf]

/-- The unpack reads below `rx_cnt` only, where the chunk gives every byte a value (R62, R138). -/
theorem transition_decode_answers {s : State} {bs : List Byte} (hs : s.st = .decode) (hb : s.HoldsChunk bs) :
    ∃ t, transition s = .next t := by
  by_cases hn : s.rxCnt < 12
  · exact ⟨_, transition_decode_short hs hn⟩
  · have h12 : 12 ≤ s.rxCnt := Nat.le_of_not_lt hn
    obtain ⟨⟨f, rest⟩, hu⟩ := Option.isSome_iff_exists.1 (unpackBytes_isSome.2 (hb.2 ▸ h12))
    obtain ⟨-, hunpack⟩ := hb.unpack_eq hu
    cases he : fieldError s.cfg s.rxCnt f with
    | some e => exact ⟨_, transition_decode_rejected hs h12 hunpack he⟩
    | none => exact ⟨_, transition_decode_accepted hs h12 hunpack he⟩

/-- Every response to a request fits the 16-bit length field (R228). -/
theorem ResponsePdu.fits {c : Cfg} {f : Fields} {pdu : List Byte} {exc : Byte} (h : ResponsePdu c f pdu exc) :
    1 + pdu.length ≤ 65535 := by
  rcases h with ⟨-, -, hrej, href, ws, hlen, rfl, -⟩ | ⟨-, -, rfl⟩ | ⟨-, -, -, -, rfl⟩ | ⟨-, -, -, rfl⟩
  · exact successPdu_fits (c := c) (by simp [hrej]) (by simp [href]) hlen
  all_goals simp

/-- While `tx_cnt` is below `tx_len` there is a byte to offer (R224). -/
theorem transition_send_answers {s : State} (hs : s.st = .send) (hlt : s.txCnt < s.txLen)
    (hl : s.txLen = s.adu.length) : ∃ t, transition s = .next t := by
  cases he : s.pins.txErr with
  | true => exact ⟨(s.emit .txErr).drop .txFail, by simp [transition, hs, sendStep, he]⟩
  | false =>
    cases hr : s.pins.txReady with
    | false => exact ⟨s, by simp [transition, hs, sendStep, he, hr]⟩
    | true =>
      have hb : s.txData = some (s.adu[s.txCnt]'(hl ▸ hlt)) := by
        rw [State.txData, if_pos hlt, List.getElem?_eq_getElem]
      cases hlast : s.txLast with
      | true => exact ⟨_, transition_send_last hs he hr hb hlast⟩
      | false => exact ⟨_, transition_send_byte hs he hr hb hlast⟩

/-- Under the invariant a transition answers, or is the handler of the request in the field registers (R164). -/
theorem State.Inv.transition_outcome {s : State} (h : s.Inv) (hc : cfgLegal s.cfg = true) :
    (∃ t, transition s = .next t) ∨ s.st = .exec ∧ ∃ f, s.fields = some f ∧ transition s = exec f.toInstr s := by
  cases hs : s.st <;> simp only [State.Inv, hs] at h
  case idle =>
    obtain ⟨-, ⟨-, hcnt⟩, -⟩ := h
    have hcap := cfgLegal_bufCap hc
    exact .inl (transition_receiving_answers (.inl hs) (by rw [hcnt, List.length_nil]; omega))
  case recv =>
    obtain ⟨-, -, hlt, -⟩ := h
    exact .inl (transition_receiving_answers (.inr hs) hlt)
  case decode =>
    obtain ⟨-, -, -, ⟨bs, hb⟩, -⟩ := h
    exact .inl (transition_decode_answers hs hb)
  case dispatch =>
    obtain ⟨-, ⟨f, hf, -⟩, -⟩ := h
    exact .inl ⟨_, transition_dispatch hs hf⟩
  case exec =>
    obtain ⟨-, -, -, f, ⟨hf, -⟩, hdisp, -⟩ := h
    exact .inr ⟨rfl, f, hf, transition_exec hs hf hdisp⟩
  case encode =>
    obtain ⟨-, -, -, -, -, f, ⟨hf, -⟩, -, hpdu⟩ := h
    exact .inl ⟨_, transition_encode hs hf hpdu.fits⟩
  case send =>
    obtain ⟨-, hlt, hl, -⟩ := h
    exact .inl (transition_send_answers hs hlt hl)
  case closed => exact .inl ⟨s, by simp [transition, hs]⟩

/-- Under the invariant a step answers, is refused for its straps, or is the handler of the request in the field
registers (R9, R164, R310). -/
theorem State.Inv.step_outcome {s : State} (h : s.Inv) :
    (∃ t, step s = .next t) ∨ (cfgLegal s.cfg = false ∧ step s = .refused .illegalStraps) ∨
      cfgLegal s.cfg = true ∧ s.st = .exec ∧ ∃ f, s.fields = some f ∧ step s = exec f.toInstr s.sample := by
  cases hr : s.resetRequested with
  | true => exact .inl ⟨s.sample.resetBlock, by simp [step, connectionStep, hr]⟩
  | false =>
    cases hc : cfgLegal s.cfg with
    | false => exact .inr (.inl ⟨rfl, by simp [step, connectionStep, hr, hc]⟩)
    | true =>
      rw [step_eq_transition hr hc]
      rcases h.sample.transition_outcome (by simpa using hc) with hnext | ⟨hs, f, hf, hx⟩
      · exact .inl hnext
      · exact .inr (.inr ⟨rfl, by simpa using hs, f, by simpa using hf, hx⟩)

/-- Settles O47: what the invariant leaves is the handler, which never faults and refuses as `execRhr_refused` says. -/
theorem invariantExcludesFaults : Obligations.InvariantExcludesFaults := by
  intro s h
  rcases h.step_outcome with ⟨t, ht⟩ | ⟨hc, ht⟩ | ⟨hc, hs, f, hf, hx⟩
  · exact ⟨fun r => by simp [ht], fun e he => by simp [ht] at he⟩
  · exact ⟨fun r => by simp [ht], fun e _ hc' => absurd (hc.symm.trans hc') (by decide)⟩
  · refine ⟨fun r => hx ▸ exec_ne_fault _ _ r, fun e he _ => ?_⟩
    rw [hx] at he
    by_cases hfc : f.fc = 0x03
    · rw [toInstr_rhr hfc] at he
      have href := execRhr_refused (by simpa using hc) he
      exact ⟨hs, ⟨f, hf, hfc⟩, by simpa using href⟩
    · rw [exec_of_not_rhr _ (toInstr_not_rhr hfc)] at he
      cases he

end Sys2Proof.Machine

/-! # The encoding (R90, R95, R100 to R102, R114, R115)

Decoder and encoder are inverse to each other in two layers: the 12 bytes and the seven field values, then the field values
and the well-formed requests. The match and mask table selects by byte 7 alone, as the function-code map does. -/

namespace Sys2Proof.Machine

/-! ## The 12 bytes and the seven field values -/

theorem ube16_toNat (b0 b1 : Byte) : (ube16 b0 b1).toNat = b0.toNat * 256 + b1.toNat := by
  have h0 := b0.isLt
  have h1 := b1.isLt
  simp only [ube16, BitVec.toNat_ofNat]
  omega

/-- The law of R115 the other way round: two bytes are the big-endian bytes of the word they make. -/
theorem be16_ube16 (b0 b1 : Byte) : be16 (ube16 b0 b1) = [b0, b1] := by
  have h0 := b0.isLt
  have h1 := b1.isLt
  have hhi : (ube16 b0 b1).extractLsb' 8 8 = b0 := by
    apply BitVec.eq_of_toNat_eq
    rw [BitVec.extractLsb'_toNat, ube16_toNat, Nat.shiftRight_eq_div_pow]
    omega
  have hlo : (ube16 b0 b1).extractLsb' 0 8 = b1 := by
    apply BitVec.eq_of_toNat_eq
    rw [BitVec.extractLsb'_toNat, ube16_toNat, Nat.shiftRight_zero]
    omega
  rw [be16, hhi, hlo]

@[simp] theorem fieldsBytes_length (f : Fields) : f.bytes.length = 12 := rfl

/-- The unpack reads back the field values it is given the bytes of, and leaves the rest (R90, R108, R115). -/
theorem unpackBytes_append (f : Fields) (rest : List Byte) : unpackBytes (f.bytes ++ rest) = some (f, rest) := by
  simp [Fields.bytes, be16, unpackBytes, ube16_be16]

/-- The unpack accepts exactly the bytes of field values with a rest behind them (R90, R108). -/
theorem unpackBytes_eq_some_iff {bs rest : List Byte} {f : Fields} :
    unpackBytes bs = some (f, rest) ↔ bs = f.bytes ++ rest := by
  constructor
  · intro h
    unfold unpackBytes at h
    split at h
    · obtain ⟨rfl, rfl⟩ := Prod.mk.inj (Option.some.inj h)
      simp [Fields.bytes, be16_ube16]
    · cases h
  · rintro rfl
    exact unpackBytes_append f rest

/-- Settles O1: the unpack inverts the field bytes, and each word is its two big-endian bytes. -/
theorem fieldValuesRoundTrip : Obligations.FieldValuesRoundTrip := by
  refine ⟨fun f => by simpa using unpackBytes_append f [], fun v => ⟨_, _, rfl, ube16_be16 v, ?_⟩⟩
  rw [← ube16_toNat, ube16_be16]

/-! ## The field values and the requests -/

/-- The map takes every code R101 does not name to the last row (R208). -/
theorem toInstr_unk {f : Fields} (h : f.fc ∉ namedCodes) : f.toInstr = .unk f.fc f.toRequest := by
  have hfc := toInstr_fc f
  have hr := toInstr_request f
  cases hi : f.toInstr with
  | unk fc r =>
    rw [hi] at hfc hr
    exact congrArg₂ Instr.unk hfc hr
  | _ =>
    rw [hi] at hfc
    exact absurd (hfc ▸ by simp [Instr.fc, namedCodes]) h

/-- The field values with function code `fc` and every other field 0. -/
def codeFields (fc : Byte) : Fields :=
  { tid := 0, pid := 0, len := 0, uid := 0, fc := fc, addr := 0, qty := 0 }

/-- The mnemonic of a request is that of its function code alone (R100). -/
theorem toInstr_mnemonic (f : Fields) : f.toInstr.mnemonic = (codeFields f.fc).toInstr.mnemonic := by
  simp only [codeFields, Fields.toInstr]
  split <;> rfl

/-- The map gives only requests of the function-code map: no named code reaches its last arm (R101). -/
theorem toInstr_wellFormed (f : Fields) : f.toInstr.WellFormed := by
  cases hi : f.toInstr with
  | unk fc r =>
    have hnamed : ∀ c ∈ namedCodes, (codeFields c).toInstr.mnemonic ≠ "UNK" := by decide
    have hfc : f.fc = fc := by rw [← toInstr_fc, hi]; rfl
    intro hmem
    refine hnamed f.fc (hfc ▸ hmem) ?_
    rw [← toInstr_mnemonic, hi]
    rfl
  | _ => trivial

/-- The map inverts the field values of a request: a named row by its own code, `UNK` by a code that no row names. -/
theorem fields_toInstr {i : Instr} (h : i.WellFormed) : i.fields.toInstr = i := by
  cases i with
  | unk fc r => exact toInstr_unk h
  | _ => rfl

/-! ## The decoder and the encoder -/

/-- The decoder accepts exactly the words of the well-formed requests, with any trailing bytes. -/
theorem decode_eq_ok_iff {bs rest : List Byte} {i : Instr} :
    decode bs = .ok (i, rest) ↔ i.WellFormed ∧ bs = assemble i rest := by
  constructor
  · intro h
    unfold decode at h
    split at h
    · rename_i f tail hu
      obtain ⟨rfl, rfl⟩ := Prod.mk.inj (Except.ok.inj h)
      refine ⟨toInstr_wellFormed f, ?_⟩
      rw [assemble, encode, toInstr_fields]
      exact unpackBytes_eq_some_iff.1 hu
    · cases h
  · rintro ⟨hwf, rfl⟩
    simp only [decode, assemble, encode, unpackBytes_append, fields_toInstr hwf]

/-- Settles O2: the words of a well-formed request are what the decoder accepts. -/
theorem decodeInvertsEncode : Obligations.DecodeInvertsEncode :=
  fun _ _ hwf => decode_eq_ok_iff.2 ⟨hwf, rfl⟩

/-- Settles O3: what the decoder accepts is the words of a well-formed request. -/
theorem encodeInvertsDecode : Obligations.EncodeInvertsDecode := by
  intro bs i rest h
  obtain ⟨hwf, hbs⟩ := decode_eq_ok_iff.1 h
  exact ⟨hwf, hbs.symm⟩

/-- Settles O4: the unpack answers from 12 bytes on, and the field bytes are the first 12. -/
theorem exactlyShortFramesRejected : Obligations.ExactlyShortFramesRejected := by
  intro bs
  constructor
  · intro h
    have hnone : unpackBytes bs = none := by
      rw [← Option.not_isSome_iff_eq_none, unpackBytes_isSome]
      omega
    simp [decode, hnone]
  · intro h
    obtain ⟨⟨f, rest⟩, hu⟩ := Option.isSome_iff_exists.1 (unpackBytes_isSome.2 h)
    have hdrop : bs.drop 12 = rest := by
      rw [unpackBytes_eq_some_iff.1 hu]
      exact List.drop_left' (fieldsBytes_length f)
    exact ⟨f.toInstr, by simp [decode, hu, hdrop]⟩

/-- Settles O7: the three words are decoded by computation. -/
theorem writtenOutWordsDecode : Obligations.WrittenOutWordsDecode :=
  ⟨by decide, by decide, by decide⟩

/-! ## The function code alone selects -/

/-- Settles O6: 0x03 selects the Read Holding Registers row, every other code a row of the illegal-function path. -/
theorem functionCodeAloneSelects : Obligations.FunctionCodeAloneSelects := by
  refine fun f => ⟨toInstr_rhr, fun h s => ?_, fun g h => ?_⟩
  · rw [exec_of_not_rhr s (toInstr_not_rhr h), toInstr_fc]
    rfl
  · rw [toInstr_mnemonic g, toInstr_mnemonic f, h]

/-! ## The 96-bit string -/

theorem extractLsb'_eq_of_getLsbD {n w k : Nat} {x : BitVec n} {v : BitVec w}
    (h : ∀ i, i < w → x.getLsbD (k + i) = v.getLsbD i) : x.extractLsb' k w = v :=
  BitVec.eq_of_getLsbD_eq fun i hi => by simp [hi, h i hi]

/-- Each field is its slice of the 96-bit string (R90). -/
theorem fields_eq_slices (f : Fields) :
    f = { tid := f.bits.extractLsb' 80 16, pid := f.bits.extractLsb' 64 16, len := f.bits.extractLsb' 48 16,
          uid := f.bits.extractLsb' 40 8, fc := f.bits.extractLsb' 32 8, addr := f.bits.extractLsb' 16 16,
          qty := f.bits.extractLsb' 0 16 } := by
  cases f
  congr 1 <;>
    exact (extractLsb'_eq_of_getLsbD fun i hi => by
      simp (disch := omega) only [fieldsBits_getLsbD, if_pos, if_neg, Nat.add_sub_cancel_left, Nat.zero_add]).symm

theorem fieldsBits_inj {f g : Fields} (h : f.bits = g.bits) : f = g := by
  rw [fields_eq_slices f, fields_eq_slices g, h]

/-- A slice of a slice is a slice. -/
theorem extractLsb'_extractLsb' {n w v : Nat} (x : BitVec n) (k j : Nat) (h : j + v ≤ w) :
    (x.extractLsb' k w).extractLsb' j v = x.extractLsb' (k + j) v :=
  extractLsb'_eq_of_getLsbD fun i hi => by
    have hji : j + i < w := by omega
    simp [hi, hji, Nat.add_assoc]

/-- The big-endian bytes of a 16-bit slice are its two 8-bit slices, the higher one first. -/
theorem be16_extractLsb' {n : Nat} (x : BitVec n) (k : Nat) :
    be16 (x.extractLsb' k 16) = [x.extractLsb' (k + 8) 8, x.extractLsb' k 8] := by
  simp [be16, extractLsb'_extractLsb']

/-- The 96-bit string of the fields is their 12 bytes, byte 0 in the highest bits (R90). -/
theorem bytesOfBits_fieldsBits (f : Fields) : bytesOfBits f.bits = f.bytes := by
  conv_rhs => rw [fields_eq_slices f]
  simp only [Fields.bytes, be16_extractLsb']
  rfl

/-! ## The match and mask table -/

/-- The mask of the named rows keeps the function code and clears every other field (R102). -/
theorem fieldsBits_and_fcMask (f : Fields) : f.bits &&& fcMask = (codeFields f.fc).bits := by
  have hmask : fcMask = (codeFields (BitVec.allOnes 8)).bits := by decide
  apply BitVec.eq_of_getLsbD_eq
  intro i hi
  simp only [hmask, BitVec.getLsbD_and, fieldsBits_getLsbD, codeFields, BitVec.getLsbD_allOnes]
  split_ifs <;> simp
  exact fun _ => by omega

/-- The row of the table for a named code: its mnemonic, and its frames under the mask of byte 7. -/
def namedRow (c : Byte) : OpcodeRow :=
  { mnemonic := (codeFields c).toInstr.mnemonic, pattern := (codeFields c).bits, mask := fcMask }

/-- A named row matches exactly the frames with its function code (R102). -/
theorem namedRow_matches (f : Fields) (c : Byte) :
    (f.bits &&& (namedRow c).mask == (namedRow c).pattern) = (c == f.fc) := by
  show (f.bits &&& fcMask == (codeFields c).bits) = (c == f.fc)
  rw [fieldsBits_and_fcMask, Bool.eq_iff_iff, beq_iff_eq, beq_iff_eq]
  exact ⟨fun h => (congrArg Fields.fc (fieldsBits_inj h)).symm, fun h => by rw [h]⟩

/-- The table is a row for each named code, then the row of `UNK`, which every frame matches (R102). -/
theorem opcodeTable_eq : opcodeTable = namedCodes.map namedRow ++ [⟨"UNK", 0, 0⟩] := by
  decide

/-- The search of the table is a search for the function code among the named ones. -/
theorem tableMnemonic_eq (f : Fields) :
    tableMnemonic f.bits =
      some (((namedCodes.find? (· == f.fc)).map fun c => (namedRow c).mnemonic).getD "UNK") := by
  have hrow : (fun row : OpcodeRow => f.bits &&& row.mask == row.pattern) ∘ namedRow = (· == f.fc) :=
    funext (namedRow_matches f)
  rw [tableMnemonic, opcodeTable_eq, List.find?_append, List.find?_map, hrow]
  cases namedCodes.find? (· == f.fc) <;> simp

/-- The table gives the decoder's mnemonic (R102). -/
theorem tableMnemonic_fieldsBits (f : Fields) : tableMnemonic f.bits = some f.toInstr.mnemonic := by
  rw [tableMnemonic_eq]
  cases hfind : namedCodes.find? (· == f.fc) with
  | some c =>
    have hc : c = f.fc := by simpa using List.find?_some hfind
    rw [toInstr_mnemonic, hc]
    rfl
  | none =>
    have hfc : f.fc ∉ namedCodes := fun hmem => by simpa using List.find?_eq_none.1 hfind _ hmem
    rw [toInstr_unk hfc]
    rfl

/-- Settles O5: both read the function code alone, and the 96-bit string is the 12 bytes. -/
theorem decoderFollowsOpcodeTable : Obligations.DecoderFollowsOpcodeTable :=
  fun f => ⟨tableMnemonic_fieldsBits f, bytesOfBits_fieldsBits f⟩

end Sys2Proof.Machine

/-! # The Frame Reader and the decoder (R131 to R136, R141 to R147, R296)

What ends a chunk or the connection in `IDLE` and `RECV`, the receipt of a whole chunk, the checks of `DECODE` in their
order, and the log record of each unpacked request. -/

namespace Sys2Proof.Machine

/-! ## The Frame Reader -/

/-- A read failure is looked at before anything else, in `IDLE` and in `RECV` alike (R135). -/
theorem transition_readFailure {s : State} (hs : s.st = .idle ∨ s.st = .recv) (he : s.pins.rxErr = true) :
    transition s = .next (readFailure s) := by
  rcases hs with hs | hs <;> simp [transition, hs, idleStep, recvStep, he]

/-- With no byte offered the end of the stream closes the connection in `IDLE` and ends the chunk in `RECV` (R133,
R134). -/
theorem transition_endOfStream {s : State} (hs : s.st = .idle ∨ s.st = .recv) (he : s.pins.rxErr = false)
    (hq : s.rxq = []) (hf : s.pins.rxEof = true) :
    transition s = .next ((s.emit .rxEof).goto (if s.st = .idle then .closed else .decode)) := by
  rcases hs with hs | hs <;> simp [transition, hs, idleStep, recvStep, he, hq, hf]

/-- With nothing at its ports the Frame Reader waits (R132). -/
theorem transition_waitForByte {s : State} (hs : s.st = .idle ∨ s.st = .recv) (he : s.pins.rxErr = false)
    (hq : s.rxq = []) (hf : s.pins.rxEof = false) : transition s = .next s := by
  rcases hs with hs | hs <;> simp [transition, hs, idleStep, recvStep, he, hq, hf]

/-- Settles O26: the next state is `readFailure`, an event and a drop. -/
theorem readFailureEndsConnection : Obligations.ReadFailureEndsConnection := by
  intro s hs he
  exact ⟨readFailure s, transition_readFailure hs he, rfl, rfl, rfl, fun _ => rfl, rfl,
    by simp [State.bytesWritten, readFailure], by simp [State.logRecords, readFailure], rfl⟩

/-- Settles O27: the end of the stream in `IDLE`. -/
theorem endOfStreamBetweenRequests : Obligations.EndOfStreamBetweenRequests := by
  intro s hs he hq hf
  rw [transition_endOfStream (.inl hs) he hq hf, if_pos hs]
  rfl

/-- Settles O28: an offered byte is accepted, else the stream has ended or the block waits. -/
theorem chunkBytesAndChunkEnd : Obligations.ChunkBytesAndChunkEnd := by
  refine fun s hs he => ⟨fun b last q hq hlt => ?_, fun hq hrecv hf => ?_, fun hq hf => ?_⟩
  · refine ⟨_, transition_acceptByte hs he hq hlt, ?_, fun a ha => ?_, rfl, rfl, rfl, rfl, rfl, ?_⟩
    · exact (Memory.read_write ..).trans (if_pos rfl)
    · exact (Memory.read_write ..).trans (if_neg ha)
    · simp [State.bytesWritten, State.accept]
  · rw [transition_endOfStream hs he hq hf, if_neg (by simp [hrecv])]
    rfl
  · exact transition_waitForByte hs he hq hf

/-- Settles O53: the receipt of a chunk, from the empty `RX` the invariant gives in `IDLE`. -/
theorem chunkReceivedWhole : Obligations.ChunkReceivedWhole := by
  intro s bs q hinv hc hi hs he hq hne hcap
  obtain ⟨-, hempty, -⟩ : s.err = .none ∧ s.Fresh := by simpa [State.Inv, hs] using hinv
  have hrun := runSteps_receive hne (.inl hs) hi hc he hempty hq (by simpa using hcap)
  exact ⟨s.received [] bs q, hrun, rfl, ⟨rfl, rfl⟩, rfl, bytesWritten_of_rxEvents rfl⟩

/-! ## The decoder -/

/-- Settles O29: the drop of a short frame. -/
theorem shortFrameDropped : Obligations.ShortFrameDropped :=
  fun _ hs hn => transition_decode_short hs hn

/-- The checks of `DECODE` as R283 orders them. -/
theorem fieldError_eq (c : Cfg) (n : Nat) (f : Fields) :
    fieldError c n f =
      if c.pidCheck = true ∧ f.pid ≠ 0 then some .unsupportedProtocol
      else if c.lenCheck = true ∧ f.len.toNat < 6 then some .frameTooShort
      else if c.lenCheck = true ∧ n < 6 + f.len.toNat then some .frameTruncated
      else none := by
  simp [fieldError]

/-- `DECODE` of 12 bytes or more unpacks, logs, and takes the first check that fails (R141, R146, R147, R283). -/
theorem transition_decode_unpacked {s : State} {f : Fields} (hs : s.st = .decode) (hn : 12 ≤ s.rxCnt)
    (hu : s.unpack = some f) :
    transition s =
      if s.cfg.pidCheck = true ∧ f.pid ≠ 0 then .next ((s.unpackAndLog f).drop .unsupportedProtocol)
      else if s.cfg.lenCheck = true ∧ f.len.toNat < 6 then .next ((s.unpackAndLog f).drop .frameTooShort)
      else if s.cfg.lenCheck = true ∧ s.rxCnt < 6 + f.len.toNat then .next ((s.unpackAndLog f).drop .frameTruncated)
      else .next ((s.unpackAndLog f).goto .dispatch) := by
  have herr := fieldError_eq s.cfg s.rxCnt f
  split_ifs at herr ⊢
  case neg => exact transition_decode_accepted hs hn hu herr
  all_goals exact transition_decode_rejected hs hn hu herr

/-- Settles O30: the fields are those the unpack reads from the chunk's first 12 bytes. -/
theorem decodeUnpacksLogsChecks : Obligations.DecodeUnpacksLogsChecks := by
  intro s b0 b1 b2 b3 b4 b5 b6 b7 b8 b9 b10 b11 rest hs hchunk
  obtain ⟨h12, hunpack⟩ := hchunk.unpack_eq rfl
  have hcnt : s.rxCnt = 12 + rest.length := hchunk.2.trans (Nat.add_comm rest.length 12)
  have hdecode := transition_decode_unpacked hs h12 hunpack
  rw [hcnt] at hdecode
  exact ⟨⟨ube16 b0 b1, ube16 b2 b3, ube16 b4 b5, b6, b7, ube16 b8 b9, ube16 b10 b11⟩, ube16_toNat b0 b1,
    ube16_toNat b2 b3, ube16_toNat b4 b5, rfl, rfl, ube16_toNat b8 b9, ube16_toNat b10 b11, hdecode⟩

/-! ## The log record -/

/-- A handler logs nothing (R146). -/
theorem exec_logRecords {i : Instr} {s t : State} (h : exec i s = .next t) : t.logRecords = s.logRecords := by
  have hrequest (a q : Word) : (s.requestStore a q).logRecords = s.logRecords := by
    rw [State.requestStore_eq]
    cases s.srBusy <;> simp [State.logRecords]
  rcases exec_cases h with ⟨pdu, exc, rfl⟩ | ⟨a, q, ans, pdu, exc, rfl⟩ | ⟨a, q, rfl⟩
  · rfl
  · rw [← hrequest a q]
    simp [State.logRecords]
  · exact hrequest a q

/-- The two rows of `DECODE` that unpack a request log it; no other row logs (R146, R251). -/
theorem transition_logRecords {s t : State} (h : transition s = .next t) :
    t.logRecords = s.logRecords ++
      (if s.st = .decode ∧ 12 ≤ s.rxCnt then s.unpack.map logRecord else none).toList := by
  cases transition_row h with
  | fieldsRejected hs hn f hu | fieldsAccepted hs hn f hu =>
    simp [State.logRecords, State.unpackAndLog, hs, hn, hu]
  | frameTooShort hs hn => simp [State.logRecords, Nat.not_le.2 hn]
  | handled hs _ _ _ hx => simp [exec_logRecords hx, hs]
  | readFailure hs | byteAccepted hs | waitForByte hs =>
    rcases hs with hs | hs <;> simp [State.logRecords, hs, readFailure]
  | endBetweenRequests hs | endOfChunk hs | dispatched hs | encoded hs | writeFailure hs | byteWritten hs
  | lastByteWritten hs | waitForPeer hs | closed hs => simp [State.logRecords, hs, State.finishRequest]

/-- Settles O42: a reset logs nothing, a transition what the port shows. -/
theorem logRecordPerUnpackedRequest : Obligations.LogRecordPerUnpackedRequest := by
  refine fun s t h => ⟨?_, rfl⟩
  rcases step_cases h with ⟨hr, rfl⟩ | ⟨hr, -, ht⟩
  · simp [State.logRecords, State.logPort, hr]
  · have hlog := transition_logRecords ht
    simpa [State.logPort, hr, State.logRecords] using hlog

end Sys2Proof.Machine

/-! # The dispatcher (R83, R141, R161, R163, R164)

The classification by `FC`, and which request the handler in `EXEC` gets: the one the chunk in `RX` decodes to. -/

namespace Sys2Proof.Machine

/-- Settles O31: the classification of the row `DISPATCH` is the one R161 writes out. -/
theorem dispatchClassifies : Obligations.DispatchClassifies :=
  fun _ _ hs hf => transition_dispatch hs hf

/-- The bytes a chunk puts into `RX` are read back from it (R31). -/
theorem State.HoldsChunk.firstBytes {s : State} {bs : List Byte} (h : s.HoldsChunk bs) :
    s.rx.firstBytes s.rxCnt = some bs := by
  rw [h.1, h.2, Memory.firstBytes_ofBytes]

/-- The request in hand is the one that the bytes of the chunk in `RX` decode to (R83, R141). -/
theorem State.HoldsRequest.decode_chunk {s : State} {f : Fields} {bs : List Byte} (h : s.HoldsRequest f)
    (hbs : s.rx.firstBytes s.rxCnt = some bs) : ∃ rest, decode bs = .ok (f.toInstr, rest) := by
  obtain ⟨-, -, -, chunk, rest, hchunk, hunpack⟩ := h
  obtain rfl : chunk = bs := Option.some.inj (hchunk.firstBytes.symm.trans hbs)
  exact ⟨rest, by rw [decode, hunpack]⟩

/-- Under the invariant the transition in `EXEC` is the handler of a request in hand (R164). -/
theorem State.Inv.transition_exec {s : State} (h : s.Inv) (hs : s.st = .exec) :
    ∃ f, s.HoldsRequest f ∧ transition s = exec f.toInstr s := by
  simp only [State.Inv, hs] at h
  obtain ⟨-, -, -, f, hreq, hdisp, -⟩ := h
  exact ⟨f, hreq, Machine.transition_exec hs hreq.1 hdisp⟩

/-- Settles O23: the sampled inputs leave `RX` as it is, so the request in hand is the one the chunk decodes to. -/
theorem stepRunsDecodedRequest : Obligations.StepRunsDecodedRequest := by
  intro s bs i rest hinv hs hr hc hbs hdec
  obtain ⟨f, hreq, hexec⟩ := hinv.sample.transition_exec (by simpa using hs)
  obtain ⟨tail, hf⟩ := hreq.decode_chunk (by simpa using hbs)
  obtain ⟨rfl, -⟩ := Prod.mk.inj (Except.ok.inj (hdec.symm.trans hf))
  rw [step_eq_transition hr hc, hexec]

end Sys2Proof.Machine

/-! # Read Holding Registers (R171 to R177, R180, R274)

The handler of function code 0x03, one equation for each of its outcomes, and the response that reaches `SEND`. -/

namespace Sys2Proof.Machine

/-! ## The byte count and the success PDU (R173, R177) -/

theorem byteCount_toNat (q : Word) : (byteCount q).toNat = 2 * q.toNat % 256 := BitVec.toNat_ofNat _ _

/-- Settles O16: no remainder is lost while twice the quantity is below 256. -/
theorem byteCountTruncates : Obligations.ByteCountTruncates := by
  intro q
  refine ⟨byteCount_toNat q, fun hq => ?_, fun hq => ?_⟩
  · rw [byteCount_toNat, Nat.mod_eq_of_lt (by omega)]
  · rw [hq]
    decide

/-- The success PDU in the terms of R177: the function code, the truncated byte count, the words in address order. -/
theorem successPdu_eq (qty : Word) (ws : List Word) :
    successPdu qty ws = [0x03, BitVec.ofNat 8 (2 * qty.toNat)] ++ (ws.map be16).flatten := rfl

/-- The success PDU of the placeholder generator (R175). -/
theorem successPdu_placeholder (qty : Word) :
    successPdu qty (placeholderWords qty) =
      [0x03, BitVec.ofNat 8 (2 * qty.toNat)] ++ (List.replicate qty.toNat [0x12, 0x34]).flatten := by
  rw [← dataBytes_placeholder]
  rfl

/-! ## The quantities a policy accepts (R172, R174) -/

/-- The quantities that pass step 1 and step 2 of R171: 1 to 125 under `STRICT`, up to 32766 under `REFERENCE`. -/
theorem quantity_accepted {c : Cfg} {qty : Word}
    (h : c.qtyPolicy = .strict ∧ 1 ≤ qty.toNat ∧ qty.toNat ≤ 125 ∨ c.qtyPolicy = .reference ∧ qty.toNat ≤ 32766) :
    quantityRejected c qty = false ∧ quantityRefused c qty = false := by
  rw [← Bool.not_eq_true, ← Bool.not_eq_true, quantityRejected_iff, quantityRefused_iff]
  rcases h with ⟨hp, hlow, hhigh⟩ | ⟨hp, hhigh⟩
  · exact ⟨fun ⟨_, hbad⟩ => by omega, fun ⟨hp', _⟩ => absurd (hp.symm.trans hp') (by decide)⟩
  · exact ⟨fun ⟨hp', _⟩ => absurd (hp.symm.trans hp') (by decide), fun ⟨_, hbad⟩ => by omega⟩

theorem quantityRejected_of_reference {c : Cfg} (hp : c.qtyPolicy = .reference) (qty : Word) :
    quantityRejected c qty = false := by
  simp [quantityRejected, hp]

theorem quantityRefused_of_strict {c : Cfg} (hp : c.qtyPolicy = .strict) (qty : Word) :
    quantityRefused c qty = false := by
  simp [quantityRefused, hp]

/-! ## The four outcomes of R171 -/

section
variable {r : Request} {s : State}

theorem exec_rhr_of_rejected (hrej : quantityRejected s.cfg r.qty = true) :
    exec (.rhr r) s = .next (s.raiseReply 0x03 0x03) := if_pos hrej

theorem exec_rhr_of_refused (hrej : quantityRejected s.cfg r.qty = false) (href : quantityRefused s.cfg r.qty = true) :
    exec (.rhr r) s = .refused .quantityBeyondLengthField := by
  simp [exec, execRhr, hrej, href]

theorem exec_rhr_of_placeholder (hrej : quantityRejected s.cfg r.qty = false)
    (href : quantityRefused s.cfg r.qty = false) (hm : s.cfg.storeMode = .placeholder) :
    exec (.rhr r) s = .next (s.replyWords r.qty (placeholderWords r.qty)) := by
  simp [exec, execRhr, hrej, href, hm]

theorem exec_rhr_of_store (hrej : quantityRejected s.cfg r.qty = false) (hp : s.cfg.qtyPolicy = .strict)
    (hm : s.cfg.storeMode = .capability) : exec (.rhr r) s = storeReadStep r.addr r.qty s := by
  simp [exec, execRhr, hrej, quantityRefused_of_strict hp, hm, hp]

/-- Under `STRICT` the handler is never outside the domain of R174: only a broken store contract is refused. -/
theorem exec_rhr_refused_of_strict {e : Refusal} (hp : s.cfg.qtyPolicy = .strict)
    (h : exec (.rhr r) s = .refused e) : e = .storeContractBroken := by
  cases hrej : quantityRejected s.cfg r.qty with
  | true =>
    rw [exec_rhr_of_rejected hrej] at h
    cases h
  | false =>
    cases hm : s.cfg.storeMode with
    | placeholder =>
      rw [exec_rhr_of_placeholder hrej (quantityRefused_of_strict hp _) hm] at h
      cases h
    | capability =>
      rw [exec_rhr_of_store hrej hp hm] at h
      exact storeReadStep_refused h

end

/-- Settles O13: the value exception of step 1 of R171. -/
theorem rhrQuantityOutOfRange : Obligations.RhrQuantityOutOfRange :=
  fun _ _ hp hq => exec_rhr_of_rejected (quantityRejected_iff.2 ⟨hp, hq⟩)

/-- Settles O14: an accepted quantity reaches the placeholder generator, which does not look at `ADDR`. -/
theorem rhrPlaceholderReply : Obligations.RhrPlaceholderReply := by
  intro r s hm hq
  obtain ⟨hrej, href⟩ := quantity_accepted hq
  rw [exec_rhr_of_placeholder hrej href hm, State.replyWords, successPdu_placeholder]
  rfl

/-- Settles O15: the boundary of step 2 of R171, and the length of the placeholder response below it. -/
theorem rhrReferenceDomain : Obligations.RhrReferenceDomain := by
  intro r s
  refine ⟨fun hp hq => ?_, fun hp hm hq => ?_, fun hp h => ?_⟩
  · exact exec_rhr_of_refused (quantityRejected_of_reference hp _) (quantityRefused_iff.2 ⟨hp, hq⟩)
  · obtain ⟨hrej, href⟩ := quantity_accepted (.inr ⟨hp, hq⟩)
    have hlen : (successPdu r.qty (placeholderWords r.qty)).length = 2 + 2 * r.qty.toNat := by simp
    exact ⟨_, exec_rhr_of_placeholder hrej href hm, hlen, by rw [State.replyWords, State.reply_pdu, hlen]; omega⟩
  · cases exec_rhr_refused_of_strict hp h

/-! ## The store's answer (R176, R274) -/

/-- A store read that is answered, whether it was outstanding or is issued in the same step: the request is recorded unless
it was already, then the answer (R242, R294). -/
theorem State.requestStore_closeStoreRead (s : State) (a q : Word) (ans : Option (List Word)) :
    (s.requestStore a q).closeStoreRead ans =
      { s with
        srBusy := false, srWords := [],
        trace := s.trace ++ (if s.srBusy then [] else [.storeRead a q]) ++ [.storeAnswer ans] } := by
  rw [State.requestStore_eq]
  cases s.srBusy <;> simp [State.closeStoreRead]

section
variable {a q : Word} {s : State}

theorem storeReadStep_of_ok (hd : s.pins.srDone = true) (hok : s.pins.srOk = true)
    (hlen : s.collectedWords.length = q.toNat) :
    storeReadStep a q s =
      .next (((s.requestStore a q).closeStoreRead (some s.collectedWords)).replyWords q s.collectedWords) := by
  simp only [storeReadStep, hd, hok, hlen, if_true]

theorem storeReadStep_of_err (hd : s.pins.srDone = true) (herr : s.pins.srOk = false) :
    storeReadStep a q s = .next (((s.requestStore a q).closeStoreRead none).raiseReply 0x03 0x02) := by
  simp [storeReadStep, hd, herr]

end

/-- Settles O17: a valid quantity reaches the store read, whose complete answer is the reply's data. -/
theorem rhrStoreAnswersOk : Obligations.RhrStoreAnswersOk := by
  intro r s hp hm hlow hhigh hd hok hlen
  obtain ⟨hrej, -⟩ := quantity_accepted (.inl ⟨hp, hlow, hhigh⟩)
  rw [exec_rhr_of_store hrej hp hm, storeReadStep_of_ok hd hok hlen, State.requestStore_closeStoreRead,
    State.replyWords, successPdu_eq]
  rfl

/-- Settles O18: the address exception of R274. -/
theorem rhrStoreAnswersErr : Obligations.RhrStoreAnswersErr := by
  intro r s hp hm hlow hhigh hd herr
  obtain ⟨hrej, -⟩ := quantity_accepted (.inl ⟨hp, hlow, hhigh⟩)
  rw [exec_rhr_of_store hrej hp hm, storeReadStep_of_err hd herr, State.requestStore_closeStoreRead]
  rfl

/-! ## The response in `SEND` (R180) -/

/-- What the invariant says in `SEND`: `adu` is the ADU of a response to the request in the field registers. -/
theorem State.Inv.response {s : State} {f : Fields} (h : s.Inv) (hs : s.st = .send) (hf : s.fields = some f) :
    ResponsePdu s.cfg f s.pdu s.exc ∧ s.adu = respondAdu f s.pdu := by
  simp only [State.Inv, hs] at h
  obtain ⟨-, -, -, -, g, hreq, -, hpdu, hadu⟩ := h
  obtain rfl := hreq.eq_of_fields hf
  exact ⟨hpdu, hadu⟩

/-- A response to a valid quantity is a success response if its `exc` says so, or if neither R272 nor R274 gives a cause for
an exception: the quantity rules out R273's. -/
theorem ResponsePdu.success {c : Cfg} {f : Fields} {pdu : List Byte} {exc : Byte} (h : ResponsePdu c f pdu exc)
    (hlow : 1 ≤ f.qty.toNat) (hhigh : f.qty.toNat ≤ 125)
    (hcause : exc = 0x00 ∨ f.fc = 0x03 ∧ (c.storeMode = .placeholder ∨ exc ≠ 0x02)) :
    exc = 0x00 ∧ f.fc = 0x03 ∧ ∃ ws, ws.length = f.qty.toNat ∧ pdu = successPdu f.qty ws := by
  rcases h with ⟨he, hfc, -, -, ws, hlen, hpdu, -⟩ | ⟨rfl, hfc, -⟩ | ⟨rfl, -, -, hm, -⟩ | ⟨-, -, hrej, -⟩
  · exact ⟨he, hfc, ws, hlen, hpdu⟩
  · exact absurd (by simpa using hcause) hfc
  · simp [hm] at hcause
  · obtain ⟨-, hbad⟩ := quantityRejected_iff.1 hrej
    omega

/-- The ADU of a success response, its length field `3 + 2q` (R180, R222). -/
theorem respondAdu_successPdu {f : Fields} {ws : List Word} (hlen : ws.length = f.qty.toNat) :
    respondAdu f (successPdu f.qty ws) =
      be16 f.tid ++ be16 f.pid ++ be16 (BitVec.ofNat 16 (3 + 2 * f.qty.toNat)) ++ [f.uid] ++
        [0x03, BitVec.ofNat 8 (2 * f.qty.toNat)] ++ dataBytes ws := by
  have hfield : 1 + (successPdu f.qty ws).length = 3 + 2 * f.qty.toNat := by
    rw [successPdu_length, hlen]
    omega
  rw [respondAdu, hfield, List.append_assoc _ [0x03, _]]
  rfl

/-- Settles O48: the response that the invariant puts into `SEND` is a success response, and its ADU is written out. -/
theorem successResponseShape : Obligations.SuccessResponseShape := by
  intro s f hinv hs hf hlow hhigh hcause
  obtain ⟨hresp, hadu⟩ := hinv.response hs hf
  obtain ⟨hexc, hfc, ws, hlen, hpdu⟩ := hresp.success hlow hhigh hcause
  rw [hpdu, respondAdu_successPdu hlen] at hadu
  exact ⟨hexc, hfc, dataBytes ws, by rw [dataBytes_length, hlen], hadu⟩

end Sys2Proof.Machine

/-! # The illegal-function path (R190 to R212)

Every function code but 0x03 takes one path, whose reply depends on `TID`, `PID`, `UID` and `FC` alone. -/

namespace Sys2Proof.Machine

/-! ## The reply (R190, R211, R212) -/

/-- The 9 bytes of an exception reply, its length field 3 (R190, R212). -/
theorem respondAdu_exception (f : Fields) (code : Byte) :
    respondAdu f [f.fc ||| 0x80, code] =
      be16 f.tid ++ be16 f.pid ++ [0x00, 0x03] ++ [f.uid] ++ [f.fc ||| 0x80, code] := by
  have hthree : be16 3#16 = [0x00, 0x03] := by decide
  simp [respondAdu, hthree]

/-- An accepted request with a code other than 0x03 is answered before any of its operands is looked at (R244). -/
theorem respond_of_not_rhr {c : Cfg} {bs rest : List Byte} {f : Fields}
    (store : Word → Word → Option (List Word)) (hu : unpackBytes bs = some (f, rest))
    (he : fieldError c bs.length f = none) (hfc : f.fc ≠ 0x03) :
    respond c store bs = .reply (respondAdu f [f.fc ||| 0x80, 0x01]) := by
  obtain ⟨hpid, hshort, htrunc⟩ := fieldError_eq_none he
  simp only [respond, hu]
  rw [if_neg hpid, if_neg hshort, if_neg htrunc, if_pos hfc]

/-- Settles O12: the exception reply of the one frame is, field by field, that of the other. -/
theorem illegalReplyIgnoresOperands : Obligations.IllegalReplyIgnoresOperands := by
  intro c store b1 b2 f1 f2 r1 r2 hu1 hu2 htid hpid huid hfc hne he1 he2
  have hsame : respondAdu f2 [f2.fc ||| 0x80, 0x01] = respondAdu f1 [f1.fc ||| 0x80, 0x01] := by
    rw [respondAdu_exception, respondAdu_exception, htid, hpid, huid, hfc]
  refine ⟨_, respondAdu_length f1 _, respond_of_not_rhr store hu1 he1 hne, ?_⟩
  rw [respond_of_not_rhr store hu2 he2 (hfc ▸ hne), hsame]

/-- A response to a code other than 0x03 can only be the exception of R272. -/
theorem ResponsePdu.of_not_rhr {c : Cfg} {f : Fields} {pdu : List Byte} {exc : Byte} (h : ResponsePdu c f pdu exc)
    (hfc : f.fc ≠ 0x03) : exc = 0x01 ∧ pdu = [f.fc ||| 0x80, 0x01] := by
  rcases h with ⟨-, h3, -⟩ | ⟨hexc, -, hpdu⟩ | ⟨-, h3, -⟩ | ⟨-, h3, -⟩
  case inr.inl => exact ⟨hexc, hpdu⟩
  all_goals exact absurd h3 hfc

/-- Settles O49: the response that the invariant puts into `SEND` is the exception reply. -/
theorem unrecognisedResponseShape : Obligations.UnrecognisedResponseShape := by
  intro s f hinv hs hf hfc
  obtain ⟨hresp, hadu⟩ := hinv.response hs hf
  obtain ⟨-, hpdu⟩ := hresp.of_not_rhr hfc
  rw [hadu, hpdu, respondAdu_exception]

/-! ## The named codes without handler (R191 to R207) -/

/-- The one path as an equation over the state: `pdu`, `exc` and `st` are written, nothing else (R190). -/
theorem exec_illegalFunction {i : Instr} {code : Byte} (s : State) (h : ∀ r, i ≠ .rhr r)
    (hcode : i.fc ||| 0x80 = code) : exec i s = .next { s with pdu := [code, 0x01], exc := 0x01, st := .encode } := by
  rw [exec_of_not_rhr s h, ← hcode]
  rfl

/-- Settles O9: none of the rows is Read Holding Registers, so each takes the one path with its own code. -/
theorem illegalFunctionLowCodes : Obligations.IllegalFunctionLowCodes := by
  intro r s
  refine ⟨?_, ?_, ?_, ?_, ?_, ?_, ?_, ?_, ?_⟩ <;> exact exec_illegalFunction s (by simp) (by simp [Instr.fc])

/-- Settles O10: as for the low codes. -/
theorem illegalFunctionHighCodes : Obligations.IllegalFunctionHighCodes := by
  intro r s
  refine ⟨?_, ?_, ?_, ?_, ?_, ?_, ?_, ?_⟩ <;> exact exec_illegalFunction s (by simp) (by simp [Instr.fc])

/-! ## The unnamed codes (R208 to R210) -/

/-- The map gives `UNK` exactly for the codes that R101 does not name. -/
theorem toInstr_eq_unk_iff {f : Fields} : (∃ fc r, f.toInstr = .unk fc r) ↔ f.fc ∉ namedCodes := by
  constructor
  · rintro ⟨fc, r, h⟩
    have hwf := toInstr_wellFormed f
    have hfc := toInstr_fc f
    rw [h] at hwf hfc
    exact hfc ▸ hwf
  · exact fun h => ⟨_, _, toInstr_unk h⟩

/-- The codes that R101 does not name, listed as R208 lists them. -/
theorem not_mem_namedCodes_iff {fc : Byte} :
    fc ∉ namedCodes ↔ fc ∈ [0x00, 0x09, 0x0A, 0x0D, 0x0E, 0x12, 0x13] ∨ 0x19 ≤ fc.toNat := by
  simp only [namedCodes, List.mem_cons, List.not_mem_nil, or_false, ← BitVec.toNat_inj, BitVec.reduceToNat]
  omega

/-- The name table of the log port has rows for the named codes only (R101, R297). -/
theorem nameTable_find?_eq_none {fc : Byte} (h : fc ∉ namedCodes) :
    nameTable.find? (fun row => row.code == fc) = none := by
  have hcodes : nameTable.map NameRow.code = namedCodes := by decide
  refine List.find?_eq_none.2 fun row hrow heq => h ?_
  rw [← hcodes, ← eq_of_beq heq]
  exact List.mem_map_of_mem hrow

/-- The log port has no name for an unnamed code (R208, R297). -/
theorem functionName_of_unnamed {fc : Byte} (h : fc ∉ namedCodes) : functionName fc = "Unknown" := by
  rw [functionName, nameTable_find?_eq_none h]

/-- A code from 0x80 on has bit 7, the only bit of the mask, set already (R209). -/
theorem or_excBit_of_le {fc : Byte} (h : 0x80 ≤ fc.toNat) : fc ||| 0x80 = fc := by
  have hbit : fc.getLsbD 7 = true := (BitVec.msb_eq_decide fc).trans (decide_eq_true h)
  have hmask : (0x80 : Byte) = BitVec.twoPow 8 7 := by decide
  apply BitVec.eq_of_getLsbD_eq
  intro i hi
  by_cases h7 : i = 7
  · simp [h7, hbit]
  · simp [hmask, BitVec.getLsbD_twoPow, Ne.symm h7]

/-- Settles O11: the unnamed codes are those of R208, and each takes the one path with its own code. -/
theorem illegalFunctionUnnamedCodes : Obligations.IllegalFunctionUnnamedCodes := by
  refine ⟨fun f => ?_, fun fc r s => ?_, fun f h => ?_, fun fc h => or_excBit_of_le h, by decide⟩
  · rw [toInstr_eq_unk_iff, not_mem_namedCodes_iff]
  · exact exec_illegalFunction s (by simp) rfl
  · exact functionName_of_unnamed (toInstr_eq_unk_iff.1 h)

end Sys2Proof.Machine

/-! # The Response Encoder (R221 to R228, R246, R247, R250, R271 to R274)

The build in `ENCODE`, the emission in `SEND` byte by byte and as a whole, which steps write a byte, and the sizes and
exception codes of the responses that reach `SEND`. -/

namespace Sys2Proof.Machine

/-! ## The build and the emission, one step at a time -/

/-- Settles O32: the state the build leaves is `State.encoded`, its ADU the one of R221 written out. -/
theorem encodeBuildsAdu : Obligations.EncodeBuildsAdu :=
  fun _ _ hs hf hl => transition_encode hs hf hl

/-- A write failure is looked at before anything else (R226). -/
theorem transition_writeFailure {s : State} (hs : s.st = .send) (he : s.pins.txErr = true) :
    transition s = .next ((s.emit .txErr).drop .txFail) := by
  simp [transition, hs, sendStep, he]

/-- A peer that is not ready leaves the byte offered (R224). -/
theorem transition_waitForPeer {s : State} (hs : s.st = .send) (he : s.pins.txErr = false)
    (hr : s.pins.txReady = false) : transition s = .next s := by
  simp [transition, hs, sendStep, he, hr]

/-- Settles O33: the next state is an event and a drop. -/
theorem writeFailureEndsConnection : Obligations.WriteFailureEndsConnection :=
  fun _ hs he => transition_writeFailure hs he

/-- Settles O34: the wait, and a byte taken that `tx_last` does not mark. -/
theorem sendOffersEachByte : Obligations.SendOffersEachByte := by
  refine fun s hs he => ⟨transition_waitForPeer hs he, fun b hr hlt hb => ?_⟩
  have hdata : s.txData = some b := by rw [State.txData, if_pos (by omega), hb]
  have hlast : s.txLast = false := decide_eq_false hlt.ne
  exact transition_send_byte hs he hr hdata hlast

/-! ## The whole response -/

/-- Settles O54: with `tx_cnt` 0 the bytes still to be written are all of `adu`. -/
theorem sendWritesWholeResponse : Obligations.SendWritesWholeResponse := by
  intro s hinv hc hi hs hcnt he hr
  simp only [State.Inv, hs] at hinv
  obtain ⟨herr, hlt, hl, -⟩ := hinv
  have hne : s.adu ≠ [] := List.ne_nil_of_length_pos (by omega)
  have hrun := runSteps_emit hne hs hi hc he hr hl (by rw [hcnt, List.drop_zero])
  rw [← hl] at hrun
  exact ⟨_, hrun, bytesWritten_of_txEvents rfl, rfl, herr, rfl⟩

/-! ## Which steps write a byte -/

/-- The only events of a handler are those of the store port (R70, R242). -/
theorem exec_trace {i : Instr} {s t : State} (h : exec i s = .next t) :
    ∃ es, t.trace = s.trace ++ es ∧ ∀ e ∈ es, (∃ a q, e = .storeRead a q) ∨ ∃ ans, e = .storeAnswer ans := by
  have hrequest (a q : Word) :
      (s.requestStore a q).trace = s.trace ++ (if s.srBusy then [] else [.storeRead a q]) := by
    rw [State.requestStore_eq]
    cases s.srBusy <;> simp
  rcases exec_cases h with ⟨pdu, exc, rfl⟩ | ⟨a, q, ans, pdu, exc, rfl⟩ | ⟨a, q, rfl⟩
  · exact ⟨[], by simp⟩
  · exact ⟨(if s.srBusy then [] else [.storeRead a q]) ++ [.storeAnswer ans], by simp [hrequest],
      by cases s.srBusy <;> simp⟩
  · exact ⟨_, hrequest a q, by cases s.srBusy <;> simp⟩

/-- A handler writes no byte. -/
theorem exec_bytesWritten {i : Instr} {s t : State} (h : exec i s = .next t) : t.bytesWritten = s.bytesWritten := by
  obtain ⟨es, htrace, hstore⟩ := exec_trace h
  rw [State.bytesWritten, htrace, List.filterMap_append]
  refine (congrArg _ (List.filterMap_eq_nil_iff.2 fun e he => ?_)).trans (List.append_nil _)
  rcases hstore e he with ⟨a, q, rfl⟩ | ⟨ans, rfl⟩ <;> rfl

/-- The two rows of `SEND` in which the peer takes the byte write it; no other row writes one (R224, R250). -/
theorem transition_bytesWritten {s t : State} (h : transition s = .next t) :
    t.bytesWritten = s.bytesWritten ++
      (if s.st = .send ∧ s.pins.txErr = false ∧ s.pins.txReady = true then s.txData.toList else []) := by
  cases transition_row h with
  | byteWritten hs he hr b hb | lastByteWritten hs he hr b hb =>
    simp [State.bytesWritten, State.finishRequest, hs, he, hr, hb]
  | writeFailure hs he => simp [State.bytesWritten, he]
  | waitForPeer hs he hr => simp [hr]
  | handled hs _ _ _ hx => simp [exec_bytesWritten hx, hs]
  | readFailure hs | byteAccepted hs | waitForByte hs =>
    rcases hs with hs | hs <;> simp [State.bytesWritten, hs, readFailure]
  | endBetweenRequests hs | endOfChunk hs | frameTooShort hs | fieldsRejected hs | fieldsAccepted hs | dispatched hs
  | encoded hs | closed hs => simp [State.bytesWritten, State.unpackAndLog, hs]

/-- Settles O41: the step is the transition of the sampled state, which has written the same bytes and offers the same. -/
theorem bytesWrittenOnlyInSend : Obligations.BytesWrittenOnlyInSend := by
  intro s t h hr
  rcases step_cases h with ⟨hr', -⟩ | ⟨-, -, ht⟩
  · simp [hr] at hr'
  · have hwritten := transition_bytesWritten ht
    simpa [State.bytesWritten] using hwritten

/-! ## The sizes and the exception codes of the responses -/

section
variable {c : Cfg} {f : Fields} {pdu : List Byte} {exc : Byte} (h : ResponsePdu c f pdu exc)
include h

/-- Under `STRICT` a PDU has 2 bytes, or 2 and two for each of at most 125 registers (R227). -/
theorem ResponsePdu.length_of_strict (hp : c.qtyPolicy = .strict) : 2 ≤ pdu.length ∧ pdu.length ≤ 252 := by
  rcases h with ⟨-, -, hrej, -, ws, hlen, rfl, -⟩ | ⟨-, -, rfl⟩ | ⟨-, -, -, -, rfl⟩ | ⟨-, -, -, rfl⟩
  · have hqty : ¬(f.qty.toNat = 0 ∨ 125 < f.qty.toNat) := fun hbad => by
      simp [quantityRejected_iff.2 ⟨hp, hbad⟩] at hrej
    rw [successPdu_length, hlen]
    omega
  all_goals simp

/-- No other exception code is used (R271). -/
theorem ResponsePdu.exc_cases : exc = 0x00 ∨ exc = 0x01 ∨ exc = 0x02 ∨ exc = 0x03 := by
  rcases h with ⟨hexc, -⟩ | ⟨hexc, -⟩ | ⟨hexc, -⟩ | ⟨hexc, -⟩ <;> simp [hexc]

/-- The code of R272 has the cause of R272 and no other: every other response is one to function code 0x03. -/
theorem ResponsePdu.exc_eq_illegalFunction_iff : exc = 0x01 ↔ f.fc ≠ 0x03 := by
  rcases h with ⟨rfl, hfc, -⟩ | ⟨rfl, hfc, -⟩ | ⟨rfl, hfc, -⟩ | ⟨rfl, hfc, -⟩
  case inr.inl => exact iff_of_true rfl hfc
  all_goals simp [hfc]

/-- The code of R273 has the cause of R273 and no other: a quantity out of range is neither answered nor put to a store. -/
theorem ResponsePdu.exc_eq_illegalDataValue_iff :
    exc = 0x03 ↔ f.fc = 0x03 ∧ c.qtyPolicy = .strict ∧ (f.qty.toNat = 0 ∨ 125 < f.qty.toNat) := by
  rw [← quantityRejected_iff]
  rcases h with ⟨rfl, -, hrej, -⟩ | ⟨rfl, hfc, -⟩ | ⟨rfl, -, hin, -⟩ | ⟨rfl, hfc, hrej, -⟩
  · simp [hrej]
  · exact iff_of_false (by decide) fun ⟨h3, _⟩ => hfc h3
  · simp [quantityRejected, hin]
  · simp [hfc, hrej]

/-- The code of R274 is a store's alone, which is asked for a quantity in range only. -/
theorem ResponsePdu.cause_of_illegalDataAddress (hexc : exc = 0x02) :
    f.fc = 0x03 ∧ c.storeMode = .capability ∧ 1 ≤ f.qty.toNat ∧ f.qty.toNat ≤ 125 := by
  subst hexc
  rcases h with ⟨hexc, -⟩ | ⟨hexc, -⟩ | ⟨-, hfc, hin, hm, -⟩ | ⟨hexc, -⟩
  case inr.inr.inl =>
    have hqty : f.qty.toNat ≠ 0 ∧ f.qty.toNat ≤ 125 := by simpa [quantityOutOfRange, maxQty] using hin
    exact ⟨hfc, hm, Nat.pos_of_ne_zero hqty.1, hqty.2⟩
  all_goals simp at hexc

end

/-- Settles O50: `tx_len` counts the 7 bytes of the header and a PDU that the invariant makes a response. -/
theorem strictResponseSizes : Obligations.StrictResponseSizes := by
  intro s hinv hs
  simp only [State.Inv, hs] at hinv
  obtain ⟨-, -, hl, -, f, ⟨hf, -⟩, -, hresp, hadu⟩ := hinv
  have hlen : s.txLen = 7 + s.pdu.length := by rw [hl, hadu, respondAdu_length]
  refine ⟨fun hp => ?_, hresp.exc_cases, f, hf, hresp.exc_eq_illegalFunction_iff, hresp.exc_eq_illegalDataValue_iff,
    hresp.cause_of_illegalDataAddress⟩
  have hpdu := hresp.length_of_strict hp
  omega

end Sys2Proof.Machine

/-! # The connection sequencer (R9, R241, R243, R245, R248, R249, R282, R294, R310)

What a step is, what the sequencer does not look at and does not take outside the transport's two ends, and the store read
of `EXEC` over several steps against `respond`. -/

namespace Sys2Proof.Machine

/-! ## What a step is (R9, R310) -/

/-- The strap combinations that are a configuration of this hardware (R9). -/
theorem cfgLegal_iff {c : Cfg} :
    cfgLegal c = true ↔ 12 ≤ c.bufCap ∧ ¬(c.qtyPolicy = .reference ∧ c.storeMode = .capability) := by
  simp [cfgLegal, minFrame, imp_iff_not_or]

theorem step_of_reset {s : State} (hr : s.resetRequested = true) : step s = .next s.sample.resetBlock := if_pos hr

theorem step_of_illegalStraps {s : State} (hr : s.resetRequested = false) (hc : ¬cfgLegal s.cfg = true) :
    step s = .refused .illegalStraps := by
  simp [step, connectionStep, hr, hc]

/-- Settles O22: the reset comes first, then the straps decide between the transition and the refusal. -/
theorem stepIsResetOrTransition : Obligations.StepIsResetOrTransition := by
  refine fun s => ⟨step_of_reset, fun hr hcap hmode => step_eq_transition hr (cfgLegal_iff.2 ⟨hcap, hmode⟩),
    fun hr hbad => step_of_illegalStraps hr fun hc => ?_⟩
  obtain ⟨hcap, hmode⟩ := cfgLegal_iff.1 hc
  rcases hbad with hlow | hboth
  · omega
  · exact hmode hboth

/-! ## The transport outside `IDLE`, `RECV` and `SEND` -/

/-- Settles O36: `CLOSED` has no row in R241, so a step without a reset only samples the inputs. -/
theorem closedOnlyResetLeaves : Obligations.ClosedOnlyResetLeaves := by
  intro s hs
  refine ⟨by simp [State.rxReady, hs], by simp [State.txValid, hs], fun hr hc => ⟨s.sample, ?_, ?_, ?_, rfl⟩⟩
  · simp [step_eq_transition hr hc, transition, hs]
  · simp [SameBlock]
  · exact State.sample_trace s

theorem State.rxReady_iff {s : State} : s.rxReady = true ↔ s.st = .idle ∨ s.st = .recv := by
  simp [State.rxReady]

/-- Only the Frame Reader takes a byte: in the other states what waits in the transport stays, and `RX` stays or is
emptied (R132, R249). -/
theorem transition_outside_receiving {s t : State} (h : transition s = .next t) (hs : ¬(s.st = .idle ∨ s.st = .recv)) :
    t.rxq = s.rxq ∧ (t.rx = s.rx ∨ t.rx = []) := by
  cases transition_row h with
  | readFailure hrecv | byteAccepted hrecv => exact absurd hrecv hs
  | frameTooShort | fieldsRejected | writeFailure | lastByteWritten => exact ⟨rfl, .inr rfl⟩
  | handled _ _ _ _ hx =>
    obtain ⟨_, _, _, _, _, _, rfl⟩ := exec_frame hx
    exact ⟨rfl, .inl rfl⟩
  | _ => exact ⟨rfl, .inl rfl⟩

/-- Settles O40: without a reset a step is a transition, which takes a byte in `IDLE` and `RECV` only. -/
theorem noByteTakenWhileRequestInHand : Obligations.NoByteTakenWhileRequestInHand := by
  intro s t h hr
  refine ⟨State.rxReady_iff, fun hready => ?_⟩
  rcases step_cases h with ⟨hr', -⟩ | ⟨-, -, ht⟩
  · simp [hr] at hr'
  · have hs : ¬(s.st = .idle ∨ s.st = .recv) := by simp [← State.rxReady_iff, hready]
    obtain ⟨hq, hrx⟩ := transition_outside_receiving ht (by simpa using hs)
    refine ⟨hq, fun a => ?_⟩
    rcases hrx with hrx | hrx
    · exact .inl (by simp [hrx])
    · exact .inr (by rw [hrx]; rfl)

/-! ### The inner states do not look at the transport (R243, R282)

One equation for each of the four stages: it commutes with a change of the transport. -/

/-- The outcome with the next state changed; a fault and a refusal have none. -/
def mapNext (g : State → State) (o : Host.Outcome State Fault Refusal) : Host.Outcome State Fault Refusal :=
  match o with
  | .next t => .next (g t)
  | .fault r => .fault r
  | .refused r => .refused r

section
variable (s : State) (q : List (Byte × Bool)) (eof rerr ready terr : Bool)

theorem decodeStep_withTransport :
    decodeStep (s.withTransport q eof rerr ready terr) =
      mapNext (·.withTransport q eof rerr ready terr) (decodeStep s) := by
  unfold decodeStep
  rw [State.withTransport_rxCnt, State.withTransport_unpack, State.withTransport_cfg]
  split_ifs
  · rfl
  · cases s.unpack with
    | none => rfl
    | some f =>
      dsimp only
      cases fieldError s.cfg s.rxCnt f <;> rfl

theorem dispatchStep_withTransport :
    dispatchStep (s.withTransport q eof rerr ready terr) =
      mapNext (·.withTransport q eof rerr ready terr) (dispatchStep s) := by
  simp only [dispatchStep, State.withTransport_fields]
  cases s.fields <;> rfl

theorem storeReadStep_withTransport (a n : Word) :
    storeReadStep a n (s.withTransport q eof rerr ready terr) =
      mapNext (·.withTransport q eof rerr ready terr) (storeReadStep a n s) := by
  simp only [storeReadStep, State.withTransport_srDone, State.withTransport_srOk, State.withTransport_collectedWords,
    State.withTransport_requestStore]
  split_ifs <;> rfl

theorem execRhr_withTransport (r : Request) :
    execRhr r (s.withTransport q eof rerr ready terr) =
      mapNext (·.withTransport q eof rerr ready terr) (execRhr r s) := by
  simp only [execRhr, State.withTransport_cfg, storeReadStep_withTransport]
  split_ifs
  · rfl
  · rfl
  · cases s.cfg.storeMode <;> rfl
  · cases s.cfg.storeMode <;> rfl

theorem exec_withTransport (i : Instr) :
    exec i (s.withTransport q eof rerr ready terr) =
      mapNext (·.withTransport q eof rerr ready terr) (exec i s) := by
  by_cases hi : ∃ r, i = .rhr r
  · obtain ⟨r, rfl⟩ := hi
    exact execRhr_withTransport s q eof rerr ready terr r
  · rw [exec_of_not_rhr _ (not_exists.1 hi), exec_of_not_rhr _ (not_exists.1 hi)]
    rfl

theorem execStep_withTransport :
    execStep (s.withTransport q eof rerr ready terr) =
      mapNext (·.withTransport q eof rerr ready terr) (execStep s) := by
  simp only [execStep, State.withTransport_currentRequest, exec_withTransport]
  cases s.currentRequest <;> rfl

theorem encodeStep_withTransport :
    encodeStep (s.withTransport q eof rerr ready terr) =
      mapNext (·.withTransport q eof rerr ready terr) (encodeStep s) := by
  simp only [encodeStep, State.withTransport_fields, State.withTransport_pdu]
  cases s.fields with
  | none => rfl
  | some f =>
    dsimp only
    cases buildAdu f.tid f.pid f.uid s.pdu <;> rfl

theorem transition_withTransport (hs : s.st = .decode ∨ s.st = .dispatch ∨ s.st = .exec ∨ s.st = .encode) :
    transition (s.withTransport q eof rerr ready terr) =
      mapNext (·.withTransport q eof rerr ready terr) (transition s) := by
  rcases hs with hs | hs | hs | hs <;> simp only [transition, State.withTransport_st, hs]
  · exact decodeStep_withTransport s q eof rerr ready terr
  · exact dispatchStep_withTransport s q eof rerr ready terr
  · exact execStep_withTransport s q eof rerr ready terr
  · exact encodeStep_withTransport s q eof rerr ready terr

end

/-- Settles O43: a change of the transport commutes with the transition. -/
theorem transportNotLookedAtInside : Obligations.TransportNotLookedAtInside := by
  intro s q eof rerr ready terr hs
  rw [transition_withTransport s q eof rerr ready terr hs]
  exact ⟨fun t ht => by rw [ht]; rfl, fun e he => by rw [he]; rfl⟩

/-! ## A chunk that asks no store (R244, R245) -/

/-- Settles O51: the three outcomes of `respond`; that no `err` stands in `DECODE` is the invariant's. -/
theorem fourStepsComputeRespond : Obligations.FourStepsComputeRespond := by
  intro s bs store hinv hc hn hs hb ha
  simp only [State.Inv, hs] at hinv
  obtain ⟨herr, -⟩ := hinv
  split
  next a hr =>
    obtain ⟨f, pdu, exc, rfl, hrun⟩ := fourSteps_of_reply hn hc hs hb ha hr
    have hlog : (s.sample.sample.sample.sample.answered f pdu exc).trace = s.trace ++ [.log (logRecord f)] := by
      simp [State.answered, State.encoded, State.withRequest, State.unpackAndLog]
    exact ⟨_, hrun, rfl, rfl, (respondAdu_length f pdu).symm, rfl,
      by simpa [State.answered, State.encoded, State.withRequest, State.unpackAndLog] using herr,
      bytesWritten_of_log hlog, storeReads_of_log hlog⟩
  next e hr => exact fourSteps_of_drop hn hc hs hb ha hr
  next hr => exact fourSteps_of_refuse hn hc hs hb ha hr

/-! ## The store read over several steps (R176, R243, R294) -/

section
variable {a q : Word} {s : State}

theorem storeReadStep_of_wait (hd : s.pins.srDone = false) :
    storeReadStep a q s = .next { s.requestStore a q with srWords := s.collectedWords } := by
  simp [storeReadStep, hd]

theorem storeReadStep_of_broken (hd : s.pins.srDone = true) (hok : s.pins.srOk = true)
    (hlen : s.collectedWords.length ≠ q.toNat) : storeReadStep a q s = .refused .storeContractBroken := by
  simp [storeReadStep, hd, hok, hlen]

end

/-- Settles O19: a valid quantity reaches the store read, which waits for `sr_done` and counts the words. -/
theorem rhrStoreWaitsOrBreaksContract : Obligations.RhrStoreWaitsOrBreaksContract := by
  intro r s hp hm hlow hhigh
  obtain ⟨hrej, -⟩ := quantity_accepted (.inl ⟨hp, hlow, hhigh⟩)
  rw [exec_rhr_of_store hrej hp hm]
  refine ⟨fun hd => ?_, storeReadStep_of_broken⟩
  rw [storeReadStep_of_wait hd, State.requestStore_eq]
  cases hb : s.srBusy <;> cases hv : s.pins.srWordValid <;> simp [State.collectedWords, hv]

/-- The read is issued once, so a step that finds it outstanding already does what the issuing step would do (R176). -/
theorem storeReadStep_requestStore (a q : Word) (s : State) :
    storeReadStep a q (s.requestStore a q) = storeReadStep a q s := by
  have hidem : (s.requestStore a q).requestStore a q = s.requestStore a q := by
    rw [State.requestStore_eq s]
    rfl
  have hwords : (s.requestStore a q).collectedWords = s.collectedWords := by
    rw [State.requestStore_eq]
    rfl
  have hpins : (s.requestStore a q).pins = s.pins := by rw [State.requestStore_eq]
  simp only [storeReadStep, hidem, hwords, hpins]

/-- The state in `EXEC` with the request in hand, its `StoreRead` issued, and the words `ws` delivered so far (R294). -/
def State.reading (s : State) (f : Fields) (ws : List Word) : State :=
  { (s.withRequest f).issueStoreRead f.addr f.qty with srWords := ws }

theorem State.sample_reading (s : State) (f : Fields) (ws : List Word) :
    (s.reading f ws).sample = s.sample.reading f ws := by
  cases h : s.inputs <;>
    simp [State.sample, State.reading, State.issueStoreRead, State.withRequest, State.unpackAndLog, State.latchFields,
      State.emit, State.goto, h]

/-- The words of a step are those delivered before it and the one at the port in it. -/
theorem State.sample_reading_collectedWords {s : State} {x : Stim} {xs : List Stim} (f : Fields) (ws : List Word)
    (h : s.inputs = x :: xs) : (s.sample.reading f ws).collectedWords = ws ++ portWords [x] := by
  rw [← State.sample_reading]
  exact State.sample_collectedWords h

/-- Sampling puts the levels of the first input at the pins. -/
theorem State.sample_pins {s : State} {x : Stim} {xs : List Stim} (h : s.inputs = x :: xs) :
    s.sample.pins = x.pins := by
  simp [State.sample, h]

theorem State.sample_inputs {s : State} {x : Stim} {xs : List Stim} (h : s.inputs = x :: xs) :
    s.sample.inputs = xs := by
  simp [State.sample, h]

/-- The handler of a request that reads the store is the store read (R171 step 3). -/
theorem exec_of_readsStore {s : State} {f : Fields} (h : ReadsStore s.cfg f) :
    exec f.toInstr s = storeReadStep f.addr f.qty s := by
  obtain ⟨hfc, hm, hrej, hp⟩ := h
  rw [toInstr_rhr hfc]
  exact exec_rhr_of_store hrej hp hm

section
variable {s : State} {f : Fields} (hn : s.NoReset) (hc : cfgLegal s.cfg = true) (hreads : ReadsStore s.cfg f)
include hn hc hreads

theorem step_reading (ws : List Word) :
    step (s.reading f ws) = storeReadStep f.addr f.qty (s.sample.reading f ws) := by
  have hn' : (s.reading f ws).NoReset := hn
  rw [hn'.step hc, State.sample_reading, transition_exec (f := f) rfl rfl rfl]
  exact exec_of_readsStore (by simpa [State.reading] using hreads)

/-- The first step in `EXEC` issues the read, and is otherwise like the steps that find it issued (log entry 5). -/
theorem step_withRequest_eq_step_reading (hsr : s.NoStoreRead) : step (s.withRequest f) = step (s.reading f []) := by
  obtain ⟨hbusy, hwords⟩ := hsr
  have hissue : s.sample.reading f [] = (s.sample.withRequest f).requestStore f.addr f.qty := by
    rw [State.requestStore_eq]
    simp [State.reading, State.issueStoreRead, State.withRequest, State.unpackAndLog, State.latchFields, State.emit,
      State.goto, hbusy, hwords]
  rw [step_withRequest f hn hc, exec_of_readsStore (by simpa using hreads), step_reading hn hc hreads, hissue,
    storeReadStep_requestStore]

end
/-- A step that waits adds the word at the port, if there is one, to those delivered (R243, R294). -/
theorem step_reading_wait {s : State} {f : Fields} {x : Stim} {xs : List Stim} (hn : s.NoReset)
    (hc : cfgLegal s.cfg = true) (hreads : ReadsStore s.cfg f) (ws : List Word) (hi : s.inputs = x :: xs)
    (hd : x.pins.srDone = false) :
    step (s.reading f ws) = .next (s.sample.reading f (ws ++ portWords [x])) := by
  have hd' : (s.sample.reading f ws).pins.srDone = false := (congrArg Pins.srDone (State.sample_pins hi)).trans hd
  rw [step_reading hn hc hreads, storeReadStep_of_wait hd', State.sample_reading_collectedWords f ws hi,
    State.requestStore_eq]
  rfl

/-- Any number of waiting steps: all that changes is the schedule, which they use up, and the words delivered. -/
theorem runSteps_waits {waits xs : List Stim} {s : State} {f : Fields} (hn : s.NoReset) (hc : cfgLegal s.cfg = true)
    (hreads : ReadsStore s.cfg f) (ws : List Word) (hi : s.inputs = waits ++ xs)
    (hwaits : ∀ w ∈ waits, w.pins.srDone = false) :
    ∃ u : State, u.NoReset ∧ u.inputs = xs ∧ u.cfg = s.cfg ∧ u.err = s.err ∧ u.trace = s.trace ∧
      ∀ k, runSteps (waits.length + k) (s.reading f ws) = runSteps k (u.reading f (ws ++ portWords waits)) := by
  induction waits generalizing s ws with
  | nil => exact ⟨s, hn, hi, rfl, rfl, rfl, fun k => by simp⟩
  | cons w waits ih =>
    obtain ⟨hw, hrest⟩ := List.forall_mem_cons.1 hwaits
    have hstep := step_reading_wait hn hc hreads ws hi hw
    obtain ⟨u, hun, hui, hucfg, huerr, hutr, hrun⟩ := ih (s := s.sample) hn.sample (by simpa using hc)
      (by simpa using hreads) (ws ++ portWords [w]) (State.sample_inputs hi) hrest
    refine ⟨u, hun, hui, by simpa using hucfg, by simpa using huerr, by simpa using hutr, fun k => ?_⟩
    rw [List.length_cons, Nat.add_right_comm, runSteps_succ _ hstep, hrun, List.append_assoc, ← portWords_append,
      List.singleton_append]

/-- `DECODE`, `DISPATCH` and the waiting steps of a request that reads the store (R141 to R147, R161, R243). -/
theorem runSteps_to_answer {s : State} {f : Fields} {x y : Stim} {waits xs : List Stim} (hn : s.NoReset)
    (hc : cfgLegal s.cfg = true) (hs : s.st = .decode) (hsr : s.NoStoreRead) (hreads : ReadsStore s.cfg f)
    (h12 : 12 ≤ s.rxCnt) (hu : s.unpack = some f) (he : fieldError s.cfg s.rxCnt f = none)
    (hi : s.inputs = x :: y :: (waits ++ xs)) (hwaits : ∀ w ∈ waits, w.pins.srDone = false) :
    ∃ u : State, u.NoReset ∧ u.inputs = xs ∧ u.cfg = s.cfg ∧ u.err = s.err ∧ u.trace = s.trace ∧
      runSteps (waits.length + 4) s = runSteps 2 (u.reading f (portWords waits)) := by
  obtain ⟨u, hun, hui, hucfg, huerr, hutr, hrun⟩ := runSteps_waits (s := s.sample.sample) hn.sample.sample
    (by simpa using hc) (by simpa using hreads) [] (State.sample_inputs (State.sample_inputs hi)) hwaits
  refine ⟨u, hun, hui, by simpa using hucfg, by simpa using huerr, by simpa using hutr, ?_⟩
  have hfirst := step_withRequest_eq_step_reading (f := f) hn.sample.sample (by simpa using hc) (by simpa using hreads)
    (by simpa [State.NoStoreRead] using hsr)
  calc runSteps (waits.length + 4) s
      = runSteps (waits.length + 2) (s.sample.sample.withRequest f) := runSteps_to_exec hn hc hs h12 hu he _
    _ = runSteps (waits.length + 2) (s.sample.sample.reading f []) := by simp only [runSteps, hfirst]
    _ = runSteps 2 (u.reading f (portWords waits)) := hrun 2

/-- The step in `ENCODE` (R221). -/
theorem step_encode {s : State} {f : Fields} (hn : s.NoReset) (hc : cfgLegal s.cfg = true) (hs : s.st = .encode)
    (hf : s.fields = some f) (hl : 1 + s.pdu.length ≤ 65535) : step s = .next (s.sample.encoded f) := by
  rw [hn.step hc]
  exact transition_encode (by simpa using hs) (by simpa using hf) (by simpa using hl)

/-- The answer and the build that follows it: the response stands unsent, one read is recorded and nothing is written. -/
theorem runSteps_answer {s : State} {f : Fields} {ws : List Word} {ans : Option (List Word)} {pdu : List Byte}
    {exc : Byte} (hn : s.NoReset) (hc : cfgLegal s.cfg = true) (hl : 1 + pdu.length ≤ 65535)
    (h : step (s.reading f ws) = .next (((s.sample.reading f ws).closeStoreRead ans).reply pdu exc)) :
    ∃ t, runSteps 2 (s.reading f ws) = .next t ∧ t.st = .send ∧ t.adu = respondAdu f pdu ∧
      t.txLen = (respondAdu f pdu).length ∧ t.txCnt = 0 ∧ t.err = s.err ∧
      t.trace = s.trace ++ [.log (logRecord f), .storeRead f.addr f.qty, .storeAnswer ans] := by
  have hn' : (((s.sample.reading f ws).closeStoreRead ans).reply pdu exc).NoReset := hn.sample
  have hencode := step_encode (f := f) hn' (by simpa [State.reading] using hc) rfl rfl hl
  refine ⟨_, by rw [runSteps_succ 1 h, runSteps_succ 0 hencode]; rfl, rfl, ?_, ?_, rfl, ?_, ?_⟩ <;>
    simp [State.encoded, State.reading, State.withRequest, State.unpackAndLog]

/-! ### The three answers against `respond` -/

section
variable {c : Cfg} {bs rest : List Byte} {f : Fields} {store : Word → Word → Option (List Word)}
  (hu : unpackBytes bs = some (f, rest)) (he : fieldError c bs.length f = none) (hreads : ReadsStore c f)
include hu he hreads

/-- The last case of R244: an `Err` is exception 0x02 (R274); words are sent if they are as many as were asked for, and
refused if not (R70). -/
theorem respond_of_readsStore :
    (store f.addr f.qty = none → respond c store bs = .reply (respondAdu f [0x83, 0x02])) ∧
      ∀ ws, store f.addr f.qty = some ws →
        respond c store bs =
          if ws.length = f.qty.toNat then .reply (respondAdu f (successPdu f.qty ws)) else .refuse := by
  obtain ⟨hpid, hshort, htrunc⟩ := fieldError_eq_none he
  obtain ⟨hfc, hm, hrej, hp⟩ := hreads
  have hin := mt quantityRejected_iff.2 (by simp [hrej] : ¬quantityRejected c f.qty = true)
  simp only [respond, hu]
  rw [if_neg hpid, if_neg hshort, if_neg htrunc, if_neg (not_not.2 hfc), if_neg hin, if_neg (by simp [hp]), hm]
  exact ⟨fun hst => by simp only [hst], fun ws hst => by simp only [hst, successPdu_eq]⟩

end

theorem readsStore_of_valid {c : Cfg} {f : Fields} (hc : cfgLegal c = true) (hm : c.storeMode = .capability)
    (hfc : f.fc = 0x03) (hlow : 1 ≤ f.qty.toNat) (hhigh : f.qty.toNat ≤ 125) : ReadsStore c f :=
  have hp := cfgLegal_capability hc hm
  ⟨hfc, hm, (quantity_accepted (.inl ⟨hp, hlow, hhigh⟩)).1, hp⟩

/-- The step of the answer (R70, R176, R274): the reply that closes the store read with the port's answer, or the refusal
of a wrong number of words; `respond` of the chunk says the same. -/
theorem step_answer_agrees_with_respond {s : State} {f : Fields} {last : Stim} {later waits : List Stim}
    {bs rest : List Byte} {store : Word → Word → Option (List Word)} (hn : s.NoReset) (hc : cfgLegal s.cfg = true)
    (hreads : ReadsStore s.cfg f) (hu : unpackBytes bs = some (f, rest)) (he : fieldError s.cfg bs.length f = none)
    (hi : s.inputs = last :: later) (hd : last.pins.srDone = true)
    (hst : store f.addr f.qty = portAnswer waits last) :
    (∃ pdu exc, 1 + pdu.length ≤ 65535 ∧ respond s.cfg store bs = .reply (respondAdu f pdu) ∧
        step (s.reading f (portWords waits)) =
          .next (((s.sample.reading f (portWords waits)).closeStoreRead (portAnswer waits last)).reply pdu exc)) ∨
      respond s.cfg store bs = .refuse ∧ step (s.reading f (portWords waits)) = .refused .storeContractBroken := by
  obtain ⟨herr, hok⟩ := respond_of_readsStore (store := store) hu he hreads
  have hpins : (s.sample.reading f (portWords waits)).pins = last.pins := State.sample_pins hi
  have hwords : (s.sample.reading f (portWords waits)).collectedWords = portWords (waits ++ [last]) := by
    rw [State.sample_reading_collectedWords f _ hi, portWords_append]
  have hissued (ans : Option (List Word)) :
      ((s.sample.reading f (portWords waits)).requestStore f.addr f.qty).closeStoreRead ans =
        (s.sample.reading f (portWords waits)).closeStoreRead ans := rfl
  rw [step_reading hn hc hreads]
  cases ho : last.pins.srOk with
  | false =>
    have hans : portAnswer waits last = none := by simp [portAnswer, ho]
    refine .inl ⟨[0x83, 0x02], 0x02, by simp, herr (hst.trans hans), ?_⟩
    rw [storeReadStep_of_err (by rw [hpins, hd]) (by rw [hpins, ho]), hissued, hans]
    rfl
  | true =>
    have hans : portAnswer waits last = some (portWords (waits ++ [last])) := by simp [portAnswer, ho]
    have hresp := hok _ (hst.trans hans)
    by_cases hlen : (portWords (waits ++ [last])).length = f.qty.toNat
    · obtain ⟨-, -, hrej, hp⟩ := hreads
      refine .inl ⟨successPdu f.qty (portWords (waits ++ [last])), 0x00,
        successPdu_fits (c := s.cfg) (by simp [hrej]) (by simp [quantityRefused_of_strict hp]) hlen,
        by rw [hresp, if_pos hlen], ?_⟩
      rw [storeReadStep_of_ok (by rw [hpins, hd]) (by rw [hpins, ho]) (by rw [hwords, hlen]), hissued, hwords, hans]
      rfl
    · exact .inr ⟨by rw [hresp, if_neg hlen],
        storeReadStep_of_broken (by rw [hpins, hd]) (by rw [hpins, ho]) (by rwa [hwords])⟩

/-- Settles O52: the steps up to the answer, the answer, and the build; the answer agrees with `respond`. -/
theorem storeReadComputesRespond : Obligations.StoreReadComputesRespond := by
  intro s bs store f rest x y last waits later hinv hc hn hs hb hm hu he hfc hlow hhigh hi hwaits hd hst
  simp only [State.Inv, hs] at hinv
  obtain ⟨herr, -, -, -, -, -, -, hsr⟩ := hinv
  have hreads := readsStore_of_valid hc hm hfc hlow hhigh
  obtain ⟨h12, hunpack⟩ := hb.unpack_eq hu
  obtain ⟨u, hun, hui, hucfg, huerr, hutr, hrun⟩ := runSteps_to_answer hn hc hs hsr hreads h12 hunpack he hi hwaits
  rw [hrun]
  rw [← hucfg] at hc hreads he ⊢
  rcases step_answer_agrees_with_respond hun hc hreads hu (hb.2 ▸ he) hui hd hst with
    ⟨pdu, exc, hl, hreply, hstep⟩ | ⟨hrefuse, hstep⟩
  · obtain ⟨t, ht, hst, hadu, hlen, hcnt, hterr, htr⟩ := runSteps_answer hun hc hl hstep
    rw [hreply]
    exact ⟨t, ht, hst, hadu, hlen, hcnt, hterr.trans (huerr.trans herr), by simp [State.bytesWritten, htr, hutr],
      by simp [State.storeReads, htr, hutr]⟩
  · rw [hrefuse]
    simp only [runSteps, hstep]

end Sys2Proof.Machine

/-! # Drops, the log's names, and several instances (R270, R285, R289, R297, R298)

What a drop leaves of the frame it drops, the name table of the log port, and the step of one instance among others. -/

namespace Sys2Proof.Machine

/-! ## The drop (R270, R285) -/

/-- No row of R241 that writes `err` writes a byte of a response (R226, R250). -/
theorem transition_bytesWritten_of_err_ne {s t : State} (h : transition s = .next t) (herr : t.err ≠ s.err) :
    t.bytesWritten = s.bytesWritten := by
  cases transition_row h with
  | readFailure | frameTooShort | fieldsRejected | writeFailure =>
    simp [State.bytesWritten, readFailure, State.unpackAndLog]
  | handled _ _ _ _ hx => exact exec_bytesWritten hx
  | _ => exact absurd rfl herr

/-- Settles O58: a transition that changes `err` is a drop, and its log records only grow. -/
theorem dropKeepsNoFrame : Obligations.DropKeepsNoFrame := by
  intro s t h herr
  have hlog : s.logRecords <+: t.logRecords := ⟨_, (transition_logRecords h).symm⟩
  have hwritten := transition_bytesWritten_of_err_ne h herr
  rcases transition_err_eq_or_drop h with hkeep | ⟨e, tr, -, rfl⟩
  · exact absurd hkeep herr
  · exact ⟨fun _ => rfl, rfl, rfl, rfl, rfl, hlog, hwritten, rfl⟩

/-! ## The name table of the log port (R297) -/

/-- The log port gives an unnamed code the index 0. -/
theorem nameIndex_of_unnamed {fc : Byte} (h : fc ∉ namedCodes) : nameIndex fc = 0 := by
  rw [nameIndex, nameTable_find?_eq_none h]

/-- Settles O8: the 18 rows are evaluated; an unnamed code has no row. -/
theorem logNamesAreTheTable : Obligations.LogNamesAreTheTable :=
  ⟨by decide, fun _ h => ⟨nameIndex_of_unnamed h, functionName_of_unnamed h⟩⟩

/-! ## Several instances (R289, R298) -/

/-- What a step of instance `k` can do to the list: nothing where there is no such instance, else it puts the instance's
next state in its place. -/
theorem stepInstance_cases {k : Nat} {ss ts : List State} (h : stepInstance k ss = .next ts) :
    (ss[k]? = none ∧ ts = ss) ∨ ∃ s t, ss[k]? = some s ∧ step s = .next t ∧ ts = ss.set k t := by
  unfold stepInstance at h
  split at h
  next hk =>
    cases h
    exact .inl ⟨hk, rfl⟩
  next s hk =>
    split at h <;> cases h
    next t ht => exact .inr ⟨s, t, hk, ht, rfl⟩

/-- Settles O56: the list is left alone or changed in place `k` only. -/
theorem instancesAreIsolated : Obligations.InstancesAreIsolated := by
  intro k j ss ts h hj
  rcases stepInstance_cases h with ⟨-, rfl⟩ | ⟨_, t, -, -, rfl⟩
  · exact ⟨rfl, rfl⟩
  · exact ⟨List.getElem?_set_ne hj.symm, List.length_set⟩

end Sys2Proof.Machine

/-! # Reset (R50, R310, R312)

When a reset is asserted, which straps it samples, and what stays of the response bytes already written. -/

namespace Sys2Proof.Machine

/-- The two causes of a reset at a step with surroundings `x` (R310). -/
theorem State.resetRequested_iff {s : State} {x : Stim} {xs : List Stim} (h : s.inputs = x :: xs) :
    s.resetRequested = true ↔ x.rst = true ∨ x.connOpen = true := by
  simp [State.resetRequested, h]

theorem State.sample_pins_of_inputs {s : State} {x : Stim} {xs : List Stim} (h : s.inputs = x :: xs) :
    s.sample.pins = x.pins := by
  simp [State.sample, h]

@[simp] theorem State.sample_bytesWritten (s : State) : s.sample.bytesWritten = s.bytesWritten := by
  simp [State.bytesWritten]

/-- A reset takes no byte of a response back, and writes none (R312). -/
@[simp] theorem State.resetBlock_bytesWritten (s : State) : s.resetBlock.bytesWritten = s.bytesWritten := by
  simp [State.bytesWritten]

/-- Settles O24: either cause makes the step the reset of the sampled state, whose straps are those of `x`. -/
theorem resetGivesResetValues : Obligations.ResetGivesResetValues := by
  intro s x xs hx hcause
  have hstep := step_of_reset ((State.resetRequested_iff hx).2 hcause)
  have hcfg : s.sample.resetBlock.cfg = x.pins.straps := congrArg Pins.straps (State.sample_pins_of_inputs hx)
  have hwritten : s.sample.resetBlock.bytesWritten = s.bytesWritten := by simp
  exact ⟨s.sample.resetBlock, hstep, rfl, rfl, rfl, rfl, rfl, rfl, rfl, rfl, fun _ => rfl, rfl, rfl, hcfg, hwritten⟩

end Sys2Proof.Machine
